-- ==== Sys2Proof/Word.lean ====
section
/-!
DEFINITION. The value types of the Blowfish core: bytes, words, blocks, and the named codes that header fields and
latched configuration fields stand for. Plain data only; what is done with them stands in Decode.lean and under Machine/.
-/
namespace Sys2Proof

/-- A payload or frame byte (20_memory.md R57). -/
abbrev Byte := BitVec 8

/-- An unsigned 32-bit word: an entry of P, S or the ROM, or a half-block (00_scope.md R8). -/
abbrev Word := BitVec 32

/-- A 64-bit block as its two halves, left and right (00_scope.md R8; 10_state.md R33). -/
structure Block where
  l : Word
  r : Word
  deriving DecidableEq, Repr

/-- The chaining mode (10_state.md R25). -/
inductive Mode where
  | ecb
  | cbc
  deriving DecidableEq, Repr

/-- The padding scheme (10_state.md R26). Codes 5 to 7 of the header field are no scheme. -/
inductive PadScheme where
  | pkcs5
  | oneAndZeros
  | lastByte
  | none
  | spaces
  deriving DecidableEq, Repr

/-- What the ITYPE or RTYPE field of a DECODE header declares (30_encoding.md R87, R88): bytes, text, or one of the two
codes that stand for neither. The two are kept apart, so that encoding a decoded command gives its header back. -/
inductive TypeCode where
  | bytes
  | text
  | neither2
  | neither3
  deriving DecidableEq, Repr

end Sys2Proof
end

