-- ==== Sys2Proof/Config.lean ====
section
/-!
DEFINITION. The parameters of the block (00_scope.md R10, R12). They are no state: no step writes them. "The model takes
it as an argument" (R10): a step's one argument is State, so State carries them (log entry 1), and a statement about every
state is a statement about every value of them.
-/
namespace Sys2Proof

/-- The two named parameters. -/
structure Params where
  /-- MAX_PAYLOAD_BYTES: the largest payload, in bytes, of one command frame (R10, left OPEN). -/
  maxPayloadBytes : Nat
  /-- EXPOSE_PRIMITIVES: whether the nine commands 0x10 to 0x18 are accepted (R12). -/
  exposePrimitives : Bool
  deriving DecidableEq, Repr

/-- The bounds R10 sets: 8 ≤ MAX_PAYLOAD_BYTES ≤ 2^32 − 9. -/
def Params.wf (p : Params) : Bool :=
  8 ≤ p.maxPayloadBytes && p.maxPayloadBytes ≤ 2 ^ 32 - 9

/-- The parameters of `State.reset`. EXPOSE_PRIMITIVES is 1, its default (R12). DESIGN CHOICE (log entry 1), unsafe:
MAX_PAYLOAD_BYTES is the largest value R10 admits. -/
def Params.standard : Params where
  maxPayloadBytes := 2 ^ 32 - 9
  exposePrimitives := true

end Sys2Proof
end

