-- ==== Sys2Proof/Syntax.lean ====
section
/-!
DEFINITION. The commands of the block as syntax: one constructor per row of spec/opcode_table.json (30_encoding.md R84),
with the operands of R89 and R93. The payload is kept whole: a length that a command refuses is refused when it runs.
-/
namespace Sys2Proof

/-- A command: what a frame that the decoder accepts stands for. -/
inductive Instr where
  /-- INIT (40_key_schedule.md R126). -/
  | init (mode : Mode) (pad : PadScheme) (key : List Byte)
  /-- SET_IV (45_facade.md R220). -/
  | setIv (iv : List Byte)
  /-- ENCODE (45_facade.md R221). -/
  | encode (data : List Byte)
  /-- DECODE (45_facade.md R222). -/
  | decode (itype : TypeCode) (rtype : TypeCode) (data : List Byte)
  /-- F_EVAL (41_round_function.md R144). -/
  | fEval (data : List Byte)
  /-- ENC_BLOCK (42_block_transform.md R154). -/
  | encBlock (data : List Byte)
  /-- DEC_BLOCK (42_block_transform.md R155). -/
  | decBlock (data : List Byte)
  /-- PAD (43_padding.md R184). -/
  | pad (scheme : PadScheme) (data : List Byte)
  /-- UNPAD (43_padding.md R185). -/
  | unpad (scheme : PadScheme) (data : List Byte)
  /-- ECB_ENC (44_chaining.md R208). -/
  | ecbEnc (data : List Byte)
  /-- ECB_DEC (44_chaining.md R209). -/
  | ecbDec (data : List Byte)
  /-- CBC_ENC (44_chaining.md R210). -/
  | cbcEnc (data : List Byte)
  /-- CBC_DEC (44_chaining.md R211). -/
  | cbcDec (data : List Byte)
  deriving DecidableEq, Repr

end Sys2Proof
end

