-- ==== Sys2Proof/WellFormed.lean ====
section
/-!
DEFINITION. Which commands a block with given parameters can be sent: the payload fits the 32-bit length word (30_encoding.md R80, R92)
and MAX_PAYLOAD_BYTES (00_scope.md R10), and a primitive command needs EXPOSE_PRIMITIVES (R12). Mode, padding scheme and type
codes are legal by their types. A payload length that the command itself refuses (SET_IV with 7 bytes) is well formed: the
frame is accepted and the command reports its status.
-/
namespace Sys2Proof

/-- The payload IN of the command (30_encoding.md R93). -/
def Instr.payload : Instr → List Byte
  | .init _ _ key => key
  | .setIv iv => iv
  | .encode data => data
  | .decode _ _ data => data
  | .fEval data => data
  | .encBlock data => data
  | .decBlock data => data
  | .pad _ data => data
  | .unpad _ data => data
  | .ecbEnc data => data
  | .ecbDec data => data
  | .cbcEnc data => data
  | .cbcDec data => data

/-- The primitive commands, opcodes 0x10 to 0x18 (30_encoding.md R84). -/
def Instr.isPrimitive : Instr → Bool
  | .init _ _ _ => false
  | .setIv _ => false
  | .encode _ => false
  | .decode _ _ _ => false
  | .fEval _ => true
  | .encBlock _ => true
  | .decBlock _ => true
  | .pad _ _ => true
  | .unpad _ _ => true
  | .ecbEnc _ => true
  | .ecbDec _ => true
  | .cbcEnc _ => true
  | .cbcDec _ => true

/-- The command can be sent to, and is accepted by, a block with parameters `p`. -/
def Instr.wellFormed (p : Params) (i : Instr) : Bool :=
  i.payload.length < 2 ^ 32 && i.payload.length ≤ p.maxPayloadBytes && (p.exposePrimitives || !i.isPrimitive)

end Sys2Proof
end

