-- ==== Sys2Proof/Decode.lean ====
section
/-!
DEFINITION. From the host's bytes to a command, and back: byte order (20_memory.md R58 to R61), the header's fields and codes
(30_encoding.md R81, R84 to R89), receiving one frame (R80), the decoder (R94), and after it the encoder.
-/
namespace Sys2Proof

/-! ### Byte order -/

/-- be32(s, k): the big-endian word of the four bytes at k (00_scope.md R16). Every use is behind a length check, so the
default for an index past the end is never read. -/
def be32 (s : List Byte) (k : Nat) : Word :=
  s.getD k 0 ++ s.getD (k + 1) 0 ++ s.getD (k + 2) 0 ++ s.getD (k + 3) 0

/-- bytes32(w): the four bytes of a word, most significant first (00_scope.md R16). -/
def bytes32 (w : Word) : List Byte :=
  [w.extractLsb' 24 8, w.extractLsb' 16 8, w.extractLsb' 8 8, w.extractLsb' 0 8]

/-! ### The header word (30_encoding.md R81) -/

/-- OPC, bits 7:0. -/
def headerOpc (h : Word) : Byte := h.extractLsb' 0 8

/-- MODE, bit 8. -/
def headerMode (h : Word) : BitVec 1 := h.extractLsb' 8 1

/-- PAD, bits 11:9. -/
def headerPad (h : Word) : BitVec 3 := h.extractLsb' 9 3

/-- ITYPE, bits 13:12. -/
def headerItype (h : Word) : BitVec 2 := h.extractLsb' 12 2

/-- RTYPE, bits 15:14. -/
def headerRtype (h : Word) : BitVec 2 := h.extractLsb' 14 2

/-- RSVD, bits 31:16. -/
def headerRsvd (h : Word) : BitVec 16 := h.extractLsb' 16 16

/-! ### Field codes (30_encoding.md R85 to R88) -/

/-- MODE codes (R85). -/
def modeCode : Mode → BitVec 1
  | .ecb => 0
  | .cbc => 1

/-- The mode of a MODE code; both codes are legal (R85). -/
def modeOfCode (c : BitVec 1) : Mode := if c = 1 then .cbc else .ecb

/-- PAD codes (R86). -/
def padCode : PadScheme → BitVec 3
  | .pkcs5 => 0
  | .oneAndZeros => 1
  | .lastByte => 2
  | .none => 3
  | .spaces => 4

/-- The scheme of a PAD code; 5, 6 and 7 are reserved (R86). -/
def padOfCode (c : BitVec 3) : Option PadScheme :=
  if c = 0 then some .pkcs5
  else if c = 1 then some .oneAndZeros
  else if c = 2 then some .lastByte
  else if c = 3 then some .none
  else if c = 4 then some .spaces
  else none

/-- ITYPE and RTYPE codes (R87, R88). -/
def typeCode : TypeCode → BitVec 2
  | .bytes => 0
  | .text => 1
  | .neither2 => 2
  | .neither3 => 3

/-- The declaration a two-bit code stands for; none is reserved (R87, R88, R90). -/
def typeOfCode (c : BitVec 2) : TypeCode :=
  if c = 0 then .bytes else if c = 1 then .text else if c = 2 then .neither2 else .neither3

/-! ### Opcodes (30_encoding.md R84, R89) -/

/-- The thirteen mnemonics of R84. -/
inductive Opcode where
  | init | setIv | encode | decode
  | fEval | encBlock | decBlock | pad | unpad | ecbEnc | ecbDec | cbcEnc | cbcDec
  deriving DecidableEq, Repr

/-- Every opcode, in the order of the table of R84. -/
def opcodes : List Opcode :=
  [.init, .setIv, .encode, .decode, .fEval, .encBlock, .decBlock, .pad, .unpad, .ecbEnc, .ecbDec, .cbcEnc, .cbcDec]

/-- OPC values (R84). -/
def opcodeValue : Opcode → Byte
  | .init => 0x01
  | .setIv => 0x02
  | .encode => 0x03
  | .decode => 0x04
  | .fEval => 0x10
  | .encBlock => 0x11
  | .decBlock => 0x12
  | .pad => 0x13
  | .unpad => 0x14
  | .ecbEnc => 0x15
  | .ecbDec => 0x16
  | .cbcEnc => 0x17
  | .cbcDec => 0x18

/-- The opcode an OPC value selects; every other value is illegal (R84, R91). -/
def opcodeOf (c : Byte) : Option Opcode := opcodes.find? fun o => opcodeValue o == c

/-- The primitive group, OPC 0x10 to 0x18 (R84). -/
def opcodePrimitive (o : Opcode) : Bool := 0x10 ≤ opcodeValue o && opcodeValue o ≤ 0x18

/-- The MODE column of R89: only INIT uses it. -/
def opcodeUsesMode (o : Opcode) : Bool := o = .init

/-- The PAD column of R89: INIT, PAD and UNPAD use it. -/
def opcodeUsesPad (o : Opcode) : Bool := o = .init || o = .pad || o = .unpad

/-- The ITYPE and RTYPE columns of R89: only DECODE uses them. -/
def opcodeUsesTypes (o : Opcode) : Bool := o = .decode

/-- A row of spec/opcode_table.json: its opcode, its mnemonic, and the match and mask of its header word. -/
structure TableRow where
  opcode : Opcode
  mnemonic : String
  pattern : Word
  mask : Word
  deriving DecidableEq, Repr

/-- spec/opcode_table.json, row by row. The decoder is written from R94, not from this list. The list is what statements
compare the decoder with. -/
def opcodeTable : List TableRow :=
  [ ⟨.init, "INIT", 0x00000001, 0xFFFFF0FF⟩,
    ⟨.setIv, "SET_IV", 0x00000002, 0xFFFFFFFF⟩,
    ⟨.encode, "ENCODE", 0x00000003, 0xFFFFFFFF⟩,
    ⟨.decode, "DECODE", 0x00000004, 0xFFFF0FFF⟩,
    ⟨.fEval, "F_EVAL", 0x00000010, 0xFFFFFFFF⟩,
    ⟨.encBlock, "ENC_BLOCK", 0x00000011, 0xFFFFFFFF⟩,
    ⟨.decBlock, "DEC_BLOCK", 0x00000012, 0xFFFFFFFF⟩,
    ⟨.pad, "PAD", 0x00000013, 0xFFFFF1FF⟩,
    ⟨.unpad, "UNPAD", 0x00000014, 0xFFFFF1FF⟩,
    ⟨.ecbEnc, "ECB_ENC", 0x00000015, 0xFFFFFFFF⟩,
    ⟨.ecbDec, "ECB_DEC", 0x00000016, 0xFFFFFFFF⟩,
    ⟨.cbcEnc, "CBC_ENC", 0x00000017, 0xFFFFFFFF⟩,
    ⟨.cbcDec, "CBC_DEC", 0x00000018, 0xFFFFFFFF⟩ ]

/-! ### Receiving one frame (30_encoding.md R80; 70_reset_and_hazards.md R350, R361) -/

/-- What the host does at the command port (60_exceptions.md R315): it sends a byte of a frame, or it resets the block. A
reset may also arrive while the command of the frame just completed is in progress (R350); the queue marks it so. -/
inductive HostEvent where
  | byte (b : Byte)
  | reset
  | resetInCommand
  deriving DecidableEq, Repr

/-- A complete command frame (R80): header word H, length word N, payload IN. -/
structure Frame where
  header : Word
  length : Nat
  payload : List Byte
  deriving DecidableEq, Repr

/-- What comes of asking the host for a number of bytes. -/
inductive Taken where
  /-- All of them have arrived. -/
  | bytes (bs : List Byte) (later : List HostEvent)
  /-- A reset came first; the bytes received so far are discarded (R350). -/
  | reset (later : List HostEvent)
  /-- Some are still to come (R361). -/
  | waiting
  deriving DecidableEq, Repr

/-- Take `n` bytes from the host. A reset marked as falling into a command is an ordinary reset here, where no command is
in progress. -/
def takeBytes : List HostEvent → Nat → Taken
  | es, 0 => .bytes [] es
  | [], _ + 1 => .waiting
  | .byte b :: es, n + 1 =>
    match takeBytes es n with
    | .bytes bs later => .bytes (b :: bs) later
    | .reset later => .reset later
    | .waiting => .waiting
  | .reset :: es, _ + 1 => .reset es
  | .resetInCommand :: es, _ + 1 => .reset es

/-- What the block does next with the host's actions. -/
inductive Transaction where
  /-- A complete frame has arrived, and its command runs to its end. -/
  | command (f : Frame) (later : List HostEvent)
  /-- A reset arrived: between frames, inside a frame, or inside the command of a complete frame (R350). -/
  | reset (later : List HostEvent)
  /-- No complete frame has arrived (R361). -/
  | waiting
  deriving DecidableEq, Repr

/-- The block's next transaction: the 8 bytes of H and N, then N payload bytes, whatever H and N are (R80, R92). -/
def nextTransaction (es : List HostEvent) : Transaction :=
  match takeBytes es 8 with
  | .waiting => .waiting
  | .reset later => .reset later
  | .bytes pre es₁ =>
    match takeBytes es₁ (be32 pre 4).toNat with
    | .waiting => .waiting
    | .reset later => .reset later
    | .bytes payload es₂ =>
      match es₂ with
      | .resetInCommand :: later => .reset later
      | later => .command ⟨be32 pre 0, (be32 pre 4).toNat, payload⟩ later

/-! ### The decoder (30_encoding.md R94) -/

/-- Why the decoder rejects a complete frame (R90, R92). -/
inductive Reject where
  /-- OPC unassigned, or a primitive OPC with EXPOSE_PRIMITIVES = 0. -/
  | illegalCommand
  /-- N > MAX_PAYLOAD_BYTES. -/
  | payloadTooLarge
  /-- RSVD, or a field the opcode does not use, is not 0; or PAD is 5, 6 or 7 where it is used. -/
  | reservedField
  deriving DecidableEq, Repr

/-- Every field that R89 marks 0 for the opcode is 0 in the header. -/
def unusedFieldsZero (o : Opcode) (h : Word) : Bool :=
  (opcodeUsesMode o || headerMode h == 0) && (opcodeUsesPad o || headerPad h == 0) &&
    (opcodeUsesTypes o || (headerItype h == 0 && headerRtype h == 0))

/-- The command of an opcode and its operands; each opcode takes the operands its row of R89 names. -/
def commandOf (o : Opcode) (mode : Mode) (scheme : PadScheme) (itype rtype : TypeCode) (payload : List Byte) : Instr :=
  match o with
  | .init => .init mode scheme payload
  | .setIv => .setIv payload
  | .encode => .encode payload
  | .decode => .decode itype rtype payload
  | .fEval => .fEval payload
  | .encBlock => .encBlock payload
  | .decBlock => .decBlock payload
  | .pad => .pad scheme payload
  | .unpad => .unpad scheme payload
  | .ecbEnc => .ecbEnc payload
  | .ecbDec => .ecbDec payload
  | .cbcEnc => .cbcEnc payload
  | .cbcDec => .cbcDec payload

/-- decode_frame of R94, check by check in its order. A header that passes the checks and does not use PAD has PAD = 0, so
reading PAD for it never fails. -/
def decodeFrame (p : Params) (f : Frame) : Except Reject Instr :=
  match opcodeOf (headerOpc f.header) with
  | none => .error .illegalCommand
  | some o =>
    if opcodePrimitive o && !p.exposePrimitives then .error .illegalCommand
    else if p.maxPayloadBytes < f.length then .error .payloadTooLarge
    else if headerRsvd f.header ≠ 0 then .error .reservedField
    else if !unusedFieldsZero o f.header then .error .reservedField
    else
      match padOfCode (headerPad f.header) with
      | none => .error .reservedField
      | some scheme =>
        .ok (commandOf o (modeOfCode (headerMode f.header)) scheme (typeOfCode (headerItype f.header))
          (typeOfCode (headerRtype f.header)) f.payload)

/-! ### The encoder -/

/-- A header word from its fields, bit 31 on the left (R81). -/
def headerWord (rtype itype : BitVec 2) (scheme : BitVec 3) (mode : BitVec 1) (opc : Byte) : Word :=
  (0 : BitVec 16) ++ rtype ++ itype ++ scheme ++ mode ++ opc

/-- The header H of a command: its opcode, the codes of the fields it uses, and 0 in every other field (R84 to R89). -/
def headerOf : Instr → Word
  | .init mode scheme _ => headerWord 0 0 (padCode scheme) (modeCode mode) (opcodeValue .init)
  | .setIv _ => headerWord 0 0 0 0 (opcodeValue .setIv)
  | .encode _ => headerWord 0 0 0 0 (opcodeValue .encode)
  | .decode itype rtype _ => headerWord (typeCode rtype) (typeCode itype) 0 0 (opcodeValue .decode)
  | .fEval _ => headerWord 0 0 0 0 (opcodeValue .fEval)
  | .encBlock _ => headerWord 0 0 0 0 (opcodeValue .encBlock)
  | .decBlock _ => headerWord 0 0 0 0 (opcodeValue .decBlock)
  | .pad scheme _ => headerWord 0 0 (padCode scheme) 0 (opcodeValue .pad)
  | .unpad scheme _ => headerWord 0 0 (padCode scheme) 0 (opcodeValue .unpad)
  | .ecbEnc _ => headerWord 0 0 0 0 (opcodeValue .ecbEnc)
  | .ecbDec _ => headerWord 0 0 0 0 (opcodeValue .ecbDec)
  | .cbcEnc _ => headerWord 0 0 0 0 (opcodeValue .cbcEnc)
  | .cbcDec _ => headerWord 0 0 0 0 (opcodeValue .cbcDec)

/-- The bytes of a frame as the host sends them (R80): H and N most significant byte first, then the payload. -/
def frameBytes (h : Word) (payload : List Byte) : List Byte :=
  bytes32 h ++ bytes32 (BitVec.ofNat 32 payload.length) ++ payload

/-- The frame bytes of a command. -/
def encode (i : Instr) : List Byte := frameBytes (headerOf i) i.payload

/-- The host's actions that send a frame. -/
def sendBytes (bs : List Byte) : List HostEvent := bs.map .byte

/-! ### Words numbered as spec/opcode_table.json numbers them -/

/-- The frame bytes of an instruction given as the number `w` of its low `nbits` bits (log entry 7): bits 31:0 are H, bits
63:32 are N, and payload byte k is bits 64 + 8k + 7 down to 64 + 8k. Bits above `nbits` are 0. -/
def tableFrameBytes (nbits w : Nat) : List Byte :=
  let v := w % 2 ^ nbits
  let n := (v / 2 ^ 32) % 2 ^ 32
  bytes32 (BitVec.ofNat 32 v) ++ bytes32 (BitVec.ofNat 32 n) ++
    (List.range n).map fun k => BitVec.ofNat 8 (v / 2 ^ (64 + 8 * k))

/-- The instruction the decoder reads from such a word, on a block with the standard parameters. -/
def decodeTableWord (nbits w : Nat) : Option Instr :=
  match nextTransaction (sendBytes (tableFrameBytes nbits w)) with
  | .command f _ =>
    match decodeFrame Params.standard f with
    | .ok i => some i
    | .error _ => none
  | .reset _ => none
  | .waiting => none

end Sys2Proof
end

