-- ==== Sys2Proof/Machine/State.lean ====
section
/-!
DEFINITION. The state of the block (10_state.md R20), its responses (30_encoding.md R82, R83), the reasons a step can stop,
and the state after reset (R39).
-/
namespace Sys2Proof.Machine

/-- The status codes of 60_exceptions.md R300, by name. -/
inductive Status where
  | ok
  | invalidIvLength
  | ivNotSet
  | invalidInputType
  | misalignedInput
  | unsupportedReturnType
  | invalidKeyLength
  | illegalCommand
  | reservedField
  | notInitialized
  | payloadLength
  | payloadTooLarge
  deriving DecidableEq, Repr

/-- A response frame: the status, the TEXT bit and the output bytes (30_encoding.md R82, R83). Its length word M is the
length of the output. -/
structure Response where
  status : Status
  text : Bool
  out : List Byte
  deriving DecidableEq, Repr

/-- The key-derived tables: the subkey array P (R30) and the four substitution tables S (R31). -/
structure Schedule where
  p : Vector Word 18
  s : Vector (Vector Word 256) 4
  deriving DecidableEq, Repr

/-- Why the machine stops with a fault. No constructor: every command and every frame ends in a response, an error too
(60_exceptions.md R302, R305, R306), and a frame that never completes leaves the block waiting (70_reset_and_hazards.md R361).
Safe: nothing is left out by it. -/
inductive Fault where
  deriving DecidableEq, Repr

/-- Why the model gives an instruction no meaning. -/
inductive Refusal where
  /-- Would be raised by an arm of `exec` whose instruction has no meaning yet. Safe: the step stops. No arm raises it. -/
  | notModelled (mnemonic : String)
  deriving DecidableEq, Repr

/-- The state of the block and of its command port. -/
structure State where
  /-- MAX_PAYLOAD_BYTES and EXPOSE_PRIMITIVES (00_scope.md R10, R12): the block's parameters, which no step writes (log entry 1). -/
  params : Params
  /-- KEYED (R23). -/
  keyed : Bool
  /-- IV_VALID (R24). -/
  ivValid : Bool
  /-- MODE (R25). -/
  mode : Mode
  /-- PADDING (R26). -/
  padding : PadScheme
  /-- IV_L, the left half of the IV (R27). -/
  ivL : Word
  /-- IV_R, the right half of the IV (R27). -/
  ivR : Word
  /-- P and S (R30, R31). -/
  keys : Schedule
  /-- The host's actions the block has not taken yet, oldest first (60_exceptions.md R315; log entry 3). -/
  inbox : List HostEvent
  /-- The response frames sent so far, oldest first (30_encoding.md R82, 70_reset_and_hazards.md R361; log entry 5). -/
  outbox : List Response
  deriving DecidableEq, Repr

/-- The state after reset of a block with parameters `p` (R39, R350): KEYED = 0 and IV_VALID = 0. DESIGN CHOICE (log entry 2), unsafe:
R39 gives MODE, PADDING, IV, P and S no value. Here they are ECB, PKCS5 and zeros. -/
def State.resetWith (p : Params) : State where
  params := p
  keyed := false
  ivValid := false
  mode := .ecb
  padding := .pkcs5
  ivL := 0
  ivR := 0
  keys := ⟨Vector.replicate 18 0, Vector.replicate 4 (Vector.replicate 256 0)⟩
  inbox := []
  outbox := []

/-- The state after reset (R39), with the standard parameters (log entry 1): the block waits for its first frame (R351). -/
def State.reset : State := State.resetWith Params.standard

end Sys2Proof.Machine
end

