-- ==== Sys2Proof/Machine/Ops.lean ====
section
/-!
DEFINITION. The named operations on the state: ending a command with a response, reporting an error (the block's whole
reaction to one), the writes of INIT and SET_IV, reset by the host, and reading a word of P or S. There is no byte memory (20_memory.md R50),
no trap entry and no return from one (60_exceptions.md R305, R306): `raise` is what stands in their place.
-/
namespace Sys2Proof.Machine

/-- What a command answers. -/
abbrev Result := Host.Outcome State Fault Refusal

/-! ### Responses (30_encoding.md R82; 00_scope.md R16) -/

/-- The response of a successful command without the TEXT bit. -/
def okResponse (out : List Byte) : Response := ⟨.ok, false, out⟩

/-- The response of a failed command: its code and nothing else, M = 0 and TEXT = 0 (60_exceptions.md R301). -/
def errorResponse (status : Status) : Response := ⟨status, false, []⟩

/-- The state with one more response sent. -/
def emit (r : Response) (s : State) : State := { s with outbox := s.outbox ++ [r] }

/-- respond(OK, out) of R16. -/
def succeed (out : List Byte) (s : State) : Result := .next (emit (okResponse out) s)

/-- raise of R16, the one reaction to an error: a response with the code, and no other state written (60_exceptions.md R302, R305). -/
def raise (status : Status) (s : State) : Result := .next (emit (errorResponse status) s)

/-! ### State writes (10_state.md R29) -/

/-- The configuration latch of a successful INIT with the derived tables (40_key_schedule.md R126, R127). IV_L and IV_R keep their bits. -/
def latchConfig (keys : Schedule) (mode : Mode) (scheme : PadScheme) (s : State) : State :=
  { s with keys := keys, mode := mode, padding := scheme, keyed := true, ivValid := false }

/-- The write of a successful SET_IV (45_facade.md R220). -/
def writeIv (iv : Block) (s : State) : State :=
  { s with ivL := iv.l, ivR := iv.r, ivValid := true }

/-- The IV register as a block (10_state.md R27). -/
def ivBlock (s : State) : Block := ⟨s.ivL, s.ivR⟩

/-- Reset by the host, after which `later` is still to come (70_reset_and_hazards.md R350). The parameters and the responses
already sent stay (log entry 5). -/
def hostReset (later : List HostEvent) (s : State) : State :=
  { State.resetWith s.params with inbox := later, outbox := s.outbox }

/-- The state once the block has taken a transaction from the host's queue. -/
def consume (later : List HostEvent) (s : State) : State := { s with inbox := later }

/-! ### Reading P and S (20_memory.md R51, R52) -/

/-- P[i]. -/
def subkey (k : Schedule) (i : Fin 18) : Word := k.p.get i

/-- S[b][x]; the 8-bit index is always in range (R52). -/
def sboxWord (k : Schedule) (b : Fin 4) (x : Byte) : Word := (k.s.get b).get x.toFin

end Sys2Proof.Machine
end

