-- ==== Sys2Proof/Machine/Operands.lean ====
section
/-!
DEFINITION. Operand assembly (30_encoding.md R93): words, blocks and block sequences from payload bytes, and blocks back to
output bytes (20_memory.md R59, R60; 44_chaining.md R200).
-/
namespace Sys2Proof.Machine

/-- The word operand of F_EVAL: be32(IN, 0). -/
def wordOperand (payload : List Byte) : Word := be32 payload 0

/-- The block operand of SET_IV, ENC_BLOCK and DEC_BLOCK: (be32(IN, 0), be32(IN, 4)). -/
def blockOperand (payload : List Byte) : Block := ⟨be32 payload 0, be32 payload 4⟩

/-- A block as 8 output bytes, left half first (R60). -/
def blockBytes (b : Block) : List Byte := bytes32 b.l ++ bytes32 b.r

/-- The blocks B_0, B_1, … of a byte sequence (R200). Bytes after the last whole block are dropped. Every caller has
checked that there are none (R201). -/
def splitBlocks : List Byte → List Block
  | b0 :: b1 :: b2 :: b3 :: b4 :: b5 :: b6 :: b7 :: rest =>
    ⟨be32 [b0, b1, b2, b3] 0, be32 [b4, b5, b6, b7] 0⟩ :: splitBlocks rest
  | _ => []

/-- The output of a driver: its blocks' bytes in order (R200). -/
def joinBlocks (bs : List Block) : List Byte := bs.flatMap blockBytes

/-- Halfwise exclusive-or of two blocks, as the CBC drivers use it (44_chaining.md R204, R205). -/
def xorBlock (a b : Block) : Block := ⟨a.l ^^^ b.l, a.r ^^^ b.r⟩

/-- A payload length the drivers accept (44_chaining.md R201). -/
def aligned (bytes : List Byte) : Bool := bytes.length % 8 == 0

end Sys2Proof.Machine
end

