-- ==== Sys2Proof/Machine/Flags.lean ====
section
/-!
DEFINITION. The flags KEYED and IV_VALID where commands test them (10_state.md R23, R24), the numbering of the control state as
CR0 to CR3 (R28), and the codes and words of a response (60_exceptions.md R300; 30_encoding.md R82, R83). The block has no
arithmetic flags (R40).
-/
namespace Sys2Proof.Machine

/-- The KEYED check, which every command but INIT, PAD and UNPAD makes first (60_exceptions.md R303 step 4). -/
def requireKeyed (s : State) (go : Result) : Result := if s.keyed then go else raise .notInitialized s

/-- The IV_VALID check of a CBC command (10_state.md R24). -/
def requireIv (s : State) (go : Result) : Result := if s.ivValid then go else raise .ivNotSet s

/-- The IV_VALID check of ENCODE and DECODE, made only with MODE = CBC (45_facade.md R221, R222). -/
def requireIvIfCbc (s : State) (go : Result) : Result := if s.mode = .cbc then requireIv s go else go

/-- The alignment check of a driver (44_chaining.md R201). -/
def requireAligned (bytes : List Byte) (s : State) (go : Result) : Result :=
  if aligned bytes then go else raise .misalignedInput s

/-- A command's exact payload length, with the status it reports otherwise. -/
def requireLength (n : Nat) (status : Status) (payload : List Byte) (s : State) (go : Result) : Result :=
  if payload.length = n then go else raise status s

/-! ### Control registers (10_state.md R28), a numbering for reference that no command reads -/

/-- CR0 CONFIG: MODE in bit 0, PADDING in bits 3:1, 0 above. -/
def cr0 (s : State) : Word := (0 : BitVec 28) ++ padCode s.padding ++ modeCode s.mode

/-- CR1 FLAGS: KEYED in bit 0, IV_VALID in bit 1, 0 above. -/
def cr1 (s : State) : Word := (0 : BitVec 30) ++ BitVec.ofBool s.ivValid ++ BitVec.ofBool s.keyed

/-- CR2 IV_L. -/
def cr2 (s : State) : Word := s.ivL

/-- CR3 IV_R. -/
def cr3 (s : State) : Word := s.ivR

/-! ### Response frames -/

/-- The status codes (R300). -/
def statusCode : Status → Byte
  | .ok => 0x00
  | .invalidIvLength => 0x01
  | .ivNotSet => 0x02
  | .invalidInputType => 0x03
  | .misalignedInput => 0x04
  | .unsupportedReturnType => 0x05
  | .invalidKeyLength => 0x06
  | .illegalCommand => 0x80
  | .reservedField => 0x81
  | .notInitialized => 0x82
  | .payloadLength => 0x83
  | .payloadTooLarge => 0x84

/-- The status a rejected frame gets (30_encoding.md R90, R92). -/
def rejectStatus : Reject → Status
  | .illegalCommand => .illegalCommand
  | .payloadTooLarge => .payloadTooLarge
  | .reservedField => .reservedField

/-- The status word ST: STATUS in bits 7:0, TEXT in bit 8, 0 above (R83). -/
def statusWord (r : Response) : Word := (0 : BitVec 23) ++ BitVec.ofBool r.text ++ statusCode r.status

/-- The bytes of a response frame: ST, M, OUT (R82). -/
def responseBytes (r : Response) : List Byte := frameBytes (statusWord r) r.out

end Sys2Proof.Machine
end

