-- ==== Sys2Proof/Machine/RoundFunction.lean ====
section
/-!
DEFINITION. The round function F and the command F_EVAL (41_round_function.md).
-/
namespace Sys2Proof.Machine

/-- F(x) of R140: the four bytes of x, most significant first, index S[0] to S[3] (R141); add, XOR, add (R142). -/
def roundFunction (k : Schedule) (x : Word) : Word :=
  ((sboxWord k 0 (x.extractLsb' 24 8) + sboxWord k 1 (x.extractLsb' 16 8)) ^^^ sboxWord k 2 (x.extractLsb' 8 8)) +
    sboxWord k 3 (x.extractLsb' 0 8)

/-- F_EVAL (R144). -/
def execFEval (data : List Byte) (s : State) : Result :=
  requireKeyed s <|
  requireLength 4 .payloadLength data s <|
  succeed (bytes32 (roundFunction s.keys (wordOperand data))) s

end Sys2Proof.Machine
end

