-- ==== Sys2Proof/Machine/BlockTransform.lean ====
section
/-!
DEFINITION. The 16-round block transform E, its inverse D, and the commands ENC_BLOCK and DEC_BLOCK (42_block_transform.md).
-/
namespace Sys2Proof.Machine

/-- One round with subkey index `i` (the loop body of R150 and R151): mix the subkey into l, mix F(l) into r, swap. -/
def feistelRound (k : Schedule) (b : Block) (i : Fin 18) : Block :=
  let l := b.l ^^^ subkey k i
  ⟨b.r ^^^ roundFunction k l, l⟩

/-- The subkey indices of E's rounds, 0 to 15 (R150). -/
def encryptRounds : List (Fin 18) := [0, 1, 2, 3, 4, 5, 6, 7, 8, 9, 10, 11, 12, 13, 14, 15]

/-- The subkey indices of D's rounds, 17 down to 2 (R151). -/
def decryptRounds : List (Fin 18) := [17, 16, 15, 14, 13, 12, 11, 10, 9, 8, 7, 6, 5, 4, 3, 2]

/-- After the rounds: undo the last swap, then mix one subkey into the right half and one into the left. -/
def whiten (k : Schedule) (right left : Fin 18) (b : Block) : Block :=
  ⟨b.r ^^^ subkey k left, b.l ^^^ subkey k right⟩

/-- E, the forward block transform (R150, in reading (a) of conflict C1). -/
def encryptBlock (k : Schedule) (b : Block) : Block :=
  whiten k 16 17 (encryptRounds.foldl (feistelRound k) b)

/-- D, the inverse block transform (R151). -/
def decryptBlock (k : Schedule) (b : Block) : Block :=
  whiten k 1 0 (decryptRounds.foldl (feistelRound k) b)

/-- ENC_BLOCK (R154). -/
def execEncBlock (data : List Byte) (s : State) : Result :=
  requireKeyed s <|
  requireLength 8 .payloadLength data s <|
  succeed (blockBytes (encryptBlock s.keys (blockOperand data))) s

/-- DEC_BLOCK (R155). -/
def execDecBlock (data : List Byte) (s : State) : Result :=
  requireKeyed s <|
  requireLength 8 .payloadLength data s <|
  succeed (blockBytes (decryptBlock s.keys (blockOperand data))) s

end Sys2Proof.Machine
end

