-- ==== Sys2Proof/Machine/KeySchedule.lean ====
section
/-!
DEFINITION. The key schedule and the command INIT (40_key_schedule.md).
-/
namespace Sys2Proof.Machine

/-- The expanded key K of 72 bytes, K[j] = key[j mod n] (R120). The empty key never gets here (R126). -/
def expandKey (key : List Byte) : List Byte :=
  (List.range 72).map fun j => key.getD (j % key.length) 0

/-- The tables before any key word is mixed in (R121). -/
def initialTables : Schedule := ⟨pInit, sInit⟩

/-- Key mixing: P[i] ← P[i] ⊕ be32(K, 4i); S is not touched (R122). -/
def mixKey (expanded : List Byte) (k : Schedule) : Schedule :=
  { k with p := Vector.ofFn fun i => subkey k i ^^^ be32 expanded (4 * i.val) }

/-- What the bootstrap pass carries from step to step: the tables as they stand, and the running block (10_state.md R34). -/
structure BootState where
  keys : Schedule
  run : Block
  deriving DecidableEq, Repr

/-- P[2i] ← sl, then P[2i+1] ← sr (R123, R124). -/
def writePPair (k : Schedule) (i : Fin 9) (b : Block) : Schedule :=
  { k with p := (k.p.set (2 * i.val) b.l (by omega)).set (2 * i.val + 1) b.r (by omega) }

/-- S[b][2j] ← sl, then S[b][2j+1] ← sr (R123, R124). -/
def writeSPair (k : Schedule) (t : Fin 4) (j : Fin 128) (b : Block) : Schedule :=
  { k with
    s := k.s.set t.val
      (((k.s.get t).set (2 * j.val) b.l (by omega)).set (2 * j.val + 1) b.r (by omega)) t.isLt }

/-- A step of the pass that fills P: E on the current tables, then the write (R123). -/
def bootstrapPStep (st : BootState) (i : Fin 9) : BootState :=
  let out := encryptBlock st.keys st.run
  ⟨writePPair st.keys i out, out⟩

/-- A step of the pass that fills table `t` (R123). -/
def bootstrapSStep (t : Fin 4) (st : BootState) (j : Fin 128) : BootState :=
  let out := encryptBlock st.keys st.run
  ⟨writeSPair st.keys t j out, out⟩

/-- The bootstrap pass in its strict order (R123, R124): 9 pairs of P, then 128 pairs of each table in turn. -/
def bootstrap (st : BootState) : BootState :=
  let st := (List.finRange 9).foldl bootstrapPStep st
  (List.finRange 4).foldl (fun st t => (List.finRange 128).foldl (bootstrapSStep t) st) st

/-- derive(key) of R125: expansion, initial tables, mixing, and the bootstrap pass from the running block (0, 0). -/
def derive (key : List Byte) : Schedule :=
  (bootstrap ⟨mixKey (expandKey key) initialTables, ⟨0, 0⟩⟩).keys

/-- INIT (R126, R127). It needs no KEYED. -/
def execInit (mode : Mode) (scheme : PadScheme) (key : List Byte) (s : State) : Result :=
  if key.length = 0 then raise .invalidKeyLength s
  else succeed [] (latchConfig (derive key) mode scheme s)

end Sys2Proof.Machine
end

