-- ==== Sys2Proof/Machine/Padding.lean ====
section
/-!
DEFINITION. The padding encoder and decoder, and the commands PAD and UNPAD (43_padding.md).
-/
namespace Sys2Proof.Machine

/-! ### Encoder -/

/-- The pad count c = 8 − (n mod 8), between 1 and 8 (R170). -/
def padCount (n : Nat) : Nat := 8 - n % 8

/-- Aligned and non-empty (R170): the case in which three schemes add nothing. -/
def alignedNonEmpty (s : List Byte) : Bool := 0 < s.length && padCount s.length == 8

/-- PKCS5 (R171). -/
def padPkcs5 (s : List Byte) : List Byte :=
  s ++ List.replicate (padCount s.length) (BitVec.ofNat 8 (padCount s.length))

/-- OneAndZeros (R172). -/
def padOneAndZeros (s : List Byte) : List Byte :=
  if alignedNonEmpty s then s else s ++ [0x80] ++ List.replicate (padCount s.length - 1) 0x00

/-- LastByte (R173). -/
def padLastByte (s : List Byte) : List Byte :=
  if alignedNonEmpty s then s
  else s ++ List.replicate (padCount s.length - 1) 0x00 ++ [BitVec.ofNat 8 (padCount s.length)]

/-- Spaces (R174). -/
def padSpaces (s : List Byte) : List Byte :=
  if alignedNonEmpty s then s else s ++ List.replicate (padCount s.length) 0x20

/-- pad(s, σ) (R171 to R175). None adds nothing (R175). -/
def padBytes : PadScheme → List Byte → List Byte
  | .pkcs5, s => padPkcs5 s
  | .oneAndZeros, s => padOneAndZeros s
  | .lastByte, s => padLastByte s
  | .none, s => s
  | .spaces, s => padSpaces s

/-! ### Decoder -/

/-- The PKCS5 decoder, which the LastByte decoder equals (R177, R178): the last byte v and the v − 1 bytes before it go when v ≤ 8
and v ≤ n. -/
def unpadCounted (s : List Byte) : List Byte :=
  match s.getLast? with
  | none => s
  | some v => if v.toNat ≤ 8 ∧ v.toNat ≤ s.length then s.take (s.length - v.toNat) else s

/-- The scan of R179 on the reversed sequence, over at most `budget` bytes: skip zeros; a 0x80 ends it and what is left of it
remains; anything else, or the end, finds no marker. -/
def markerScan : Nat → List Byte → Option (List Byte)
  | 0, _ => none
  | _ + 1, [] => none
  | budget + 1, b :: rest =>
    if b = 0x80 then some rest else if b = 0x00 then markerScan budget rest else none

/-- The OneAndZeros decoder (R179). -/
def unpadOneAndZeros (s : List Byte) : List Byte :=
  match markerScan 8 s.reverse with
  | some rest => rest.reverse
  | none => s

/-- The scan of R180 on the reversed sequence: drop 0x20 bytes, at most `budget` of them. -/
def dropSpaces : Nat → List Byte → List Byte
  | 0, s => s
  | _ + 1, [] => []
  | budget + 1, b :: rest => if b = 0x20 then dropSpaces budget rest else b :: rest

/-- The Spaces decoder (R180). -/
def unpadSpaces (s : List Byte) : List Byte := (dropSpaces 8 s.reverse).reverse

/-- unpad(s, σ) (R177 to R181). None removes nothing (R181). -/
def unpadBytes : PadScheme → List Byte → List Byte
  | .pkcs5, s => unpadCounted s
  | .oneAndZeros, s => unpadOneAndZeros s
  | .lastByte, s => unpadCounted s
  | .none, s => s
  | .spaces, s => unpadSpaces s

/-! ### Commands -/

/-- PAD (R184): no KEYED, and the scheme of its own header. -/
def execPad (scheme : PadScheme) (data : List Byte) (s : State) : Result :=
  succeed (padBytes scheme data) s

/-- UNPAD (R185): no KEYED, and the scheme of its own header. -/
def execUnpad (scheme : PadScheme) (data : List Byte) (s : State) : Result :=
  succeed (unpadBytes scheme data) s

end Sys2Proof.Machine
end

