-- ==== Sys2Proof/Machine/Chaining.lean ====
section
/-!
DEFINITION. The ECB and CBC drivers and the commands ECB_ENC, ECB_DEC, CBC_ENC and CBC_DEC (44_chaining.md).
-/
namespace Sys2Proof.Machine

/-- ecb_enc (R202). -/
def ecbEncrypt (k : Schedule) (s : List Byte) : List Byte :=
  joinBlocks ((splitBlocks s).map (encryptBlock k))

/-- ecb_dec (R203). -/
def ecbDecrypt (k : Schedule) (s : List Byte) : List Byte :=
  joinBlocks ((splitBlocks s).map (decryptBlock k))

/-- The loop of cbc_enc (R204): `prev` is the chaining register (pl, pr), which takes each block's ciphertext. -/
def cbcEncBlocks (k : Schedule) (prev : Block) : List Block → List Block
  | [] => []
  | b :: bs =>
    let c := encryptBlock k (xorBlock b prev)
    c :: cbcEncBlocks k c bs

/-- The loop of cbc_dec (R205): the chaining register takes each block's input ciphertext, not its output. -/
def cbcDecBlocks (k : Schedule) (prev : Block) : List Block → List Block
  | [] => []
  | c :: cs => xorBlock (decryptBlock k c) prev :: cbcDecBlocks k c cs

/-- cbc_enc (R204) from the IV `iv`. -/
def cbcEncrypt (k : Schedule) (iv : Block) (s : List Byte) : List Byte :=
  joinBlocks (cbcEncBlocks k iv (splitBlocks s))

/-- cbc_dec (R205) from the IV `iv`. -/
def cbcDecrypt (k : Schedule) (iv : Block) (s : List Byte) : List Byte :=
  joinBlocks (cbcDecBlocks k iv (splitBlocks s))

/-- ECB_ENC (R208). -/
def execEcbEnc (data : List Byte) (s : State) : Result :=
  requireKeyed s <|
  requireAligned data s <|
  succeed (ecbEncrypt s.keys data) s

/-- ECB_DEC (R209). -/
def execEcbDec (data : List Byte) (s : State) : Result :=
  requireKeyed s <|
  requireAligned data s <|
  succeed (ecbDecrypt s.keys data) s

/-- CBC_ENC (R210): the IV is checked before the alignment. -/
def execCbcEnc (data : List Byte) (s : State) : Result :=
  requireKeyed s <|
  requireIv s <|
  requireAligned data s <|
  succeed (cbcEncrypt s.keys (ivBlock s) data) s

/-- CBC_DEC (R211): the alignment is checked before the IV. -/
def execCbcDec (data : List Byte) (s : State) : Result :=
  requireKeyed s <|
  requireAligned data s <|
  requireIv s <|
  succeed (cbcDecrypt s.keys (ivBlock s) data) s

end Sys2Proof.Machine
end

