-- ==== Sys2Proof/Machine/Facade.lean ====
section
/-!
DEFINITION. The façade commands SET_IV, ENCODE and DECODE (45_facade.md).
-/
namespace Sys2Proof.Machine

/-- The encrypting driver that MODE chooses (R223). -/
def encryptWithMode (s : State) (data : List Byte) : List Byte :=
  match s.mode with
  | .ecb => ecbEncrypt s.keys data
  | .cbc => cbcEncrypt s.keys (ivBlock s) data

/-- The decrypting driver that MODE chooses (R223). -/
def decryptWithMode (s : State) (data : List Byte) : List Byte :=
  match s.mode with
  | .ecb => ecbDecrypt s.keys data
  | .cbc => cbcDecrypt s.keys (ivBlock s) data

/-- Codes 2 and 3 of ITYPE and RTYPE are the type errors (30_encoding.md R87, R88). -/
def typeKnown : TypeCode → Bool
  | .bytes => true
  | .text => true
  | .neither2 => false
  | .neither3 => false

/-- SET_IV (R220). -/
def execSetIv (iv : List Byte) (s : State) : Result :=
  requireKeyed s <|
  requireLength 8 .invalidIvLength iv s <|
  succeed [] (writeIv (blockOperand iv) s)

/-- ENCODE (R221): pad with PADDING, check the IV, check the alignment of the padded input, encrypt. -/
def execEncode (data : List Byte) (s : State) : Result :=
  requireKeyed s <|
  let padded := padBytes s.padding data
  requireIvIfCbc s <|
  requireAligned padded s <|
  succeed (encryptWithMode s padded) s

/-- DECODE (R222): check the input type, the alignment and the IV; decrypt; unpad with PADDING; check the return type. TEXT is 1
exactly when text was asked for (30_encoding.md R83). -/
def execDecode (itype rtype : TypeCode) (data : List Byte) (s : State) : Result :=
  requireKeyed s <|
  if !typeKnown itype then raise .invalidInputType s
  else
    requireAligned data s <|
    requireIvIfCbc s <|
    let out := unpadBytes s.padding (decryptWithMode s data)
    if !typeKnown rtype then raise .unsupportedReturnType s
    else .next (emit ⟨.ok, rtype = .text, out⟩ s)

end Sys2Proof.Machine
end

