-- ==== Sys2Proof/Machine/Dispatch.lean ====
section
/-!
DEFINITION. The meaning of every command, one arm per constructor of Instr (30_encoding.md R84).
-/
namespace Sys2Proof.Machine

def exec (i : Instr) (s : State) : Host.Outcome State Fault Refusal :=
  match i with
  | .init mode scheme key => Sys2Proof.Machine.execInit mode scheme key s
  | .setIv iv => Sys2Proof.Machine.execSetIv iv s
  | .encode data => Sys2Proof.Machine.execEncode data s
  | .decode itype rtype data => Sys2Proof.Machine.execDecode itype rtype data s
  | .fEval data => Sys2Proof.Machine.execFEval data s
  | .encBlock data => Sys2Proof.Machine.execEncBlock data s
  | .decBlock data => Sys2Proof.Machine.execDecBlock data s
  | .pad scheme data => Sys2Proof.Machine.execPad scheme data s
  | .unpad scheme data => Sys2Proof.Machine.execUnpad scheme data s
  | .ecbEnc data => Sys2Proof.Machine.execEcbEnc data s
  | .ecbDec data => Sys2Proof.Machine.execEcbDec data s
  | .cbcEnc data => Sys2Proof.Machine.execCbcEnc data s
  | .cbcDec data => Sys2Proof.Machine.execCbcDec data s

end Sys2Proof.Machine
end

