-- ==== Sys2Proof/Machine/Transaction.lean ====
section
/-!
DEFINITION. One transaction of the command port: what the block does with a complete frame, with a reset, and while it waits
(30_encoding.md R80, R94; 60_exceptions.md R303; 70_reset_and_hazards.md R350, R361).
-/
namespace Sys2Proof.Machine

/-- A complete frame: run the command it decodes to, or report why it is rejected. Either way it has been taken from the host. -/
def runFrame (f : Frame) (s : State) : Result :=
  match decodeFrame s.params f with
  | .ok i => exec i s
  | .error e => raise (rejectStatus e) s

/-- The block's next transaction. While no complete frame has arrived it waits, with its state unchanged (R361; log entry 4). -/
def runTransaction (t : Transaction) (s : State) : Result :=
  match t with
  | .command f later => runFrame f (consume later s)
  | .reset later => .next (hostReset later s)
  | .waiting => .next s

/-- The host's queue replaced by the frame of an instruction given as a table word (log entry 7). -/
def sendTableWord (nbits w : Nat) (s : State) : State :=
  { s with inbox := sendBytes (tableFrameBytes nbits w) }

end Sys2Proof.Machine
end

