-- ==== Sys2Proof/Machine/Step.lean ====
section
/-!
DEFINITION. One step of the block: its next transaction with the host, a whole command being one step (70_reset_and_hazards.md R360; log
entry 6).
-/
namespace Sys2Proof.Machine

/-- One step. -/
def step (s : State) : Host.Outcome State Fault Refusal := runTransaction (nextTransaction s.inbox) s

/-- `s` with the instruction that the table word stands for as the next frame of the host (log entries 3 and 7). -/
def State.withFetchWord (s : State) (nbits w : Nat) : State := sendTableWord nbits w s

end Sys2Proof.Machine
end

