-- ==== Sys2Proof/Machine/Assembler.lean ====
section
/-!
DEFINITION. The host side of command scripts: the assembler syntax (30_encoding.md R95) and the pseudo-commands (R96). A line becomes
the bytes of one command frame. Nothing of the block depends on it.
-/
namespace Sys2Proof.Machine

/-! ### Characters and operands -/

/-- The words of a line, separated by blanks; `word` is the word being read, reversed. -/
def splitWords (word : List Char) : List Char → List (List Char)
  | [] => if word.isEmpty then [] else [word.reverse]
  | c :: cs =>
    if c = ' ' then (if word.isEmpty then splitWords [] cs else word.reverse :: splitWords [] cs)
    else splitWords (c :: word) cs

/-- An operand `name=value`, split at its first equals sign. -/
def splitOperand : List Char → Option (List Char × List Char)
  | [] => none
  | c :: cs =>
    if c = '=' then some ([], cs)
    else match splitOperand cs with
      | none => none
      | some (name, value) => some (c :: name, value)

/-- All operands of a line, in the order written. -/
def splitOperands : List (List Char) → Option (List (List Char × List Char))
  | [] => some []
  | w :: ws =>
    match splitOperand w, splitOperands ws with
    | some op, some ops => some (op :: ops)
    | _, _ => none

/-- The value of one hexadecimal digit, of either case (log entry 9). -/
def hexDigit (c : Char) : Option Nat :=
  let n := c.toNat
  if 48 ≤ n ∧ n ≤ 57 then some (n - 48)
  else if 65 ≤ n ∧ n ≤ 70 then some (n - 55)
  else if 97 ≤ n ∧ n ≤ 102 then some (n - 87)
  else none

/-- The bytes of a hex string, two digits a byte (00_scope.md R13). -/
def hexBytes : List Char → Option (List Byte)
  | [] => some []
  | [_] => none
  | a :: b :: rest =>
    match hexDigit a, hexDigit b, hexBytes rest with
    | some x, some y, some bs => some (BitVec.ofNat 8 (16 * x + y) :: bs)
    | _, _, _ => none

/-- The double quote. -/
def quoteMark : Char := Char.ofNat 34

/-- A payload value: a hex string, or two double quotes for the empty payload (R95). -/
def payloadValue (v : List Char) : Option (List Byte) :=
  if v = [quoteMark, quoteMark] then some [] else if v = [] then none else hexBytes v

/-- The value of the operand `name`, if it is given. -/
def operandValue (name : String) (ops : List (List Char × List Char)) : Option (List Char) :=
  (ops.find? fun op => op.1 == name.toList).map (·.2)

/-- No operand is named outside `names`, and none is named twice (log entry 9). -/
def operandsAre (names : List String) (ops : List (List Char × List Char)) : Bool :=
  (ops.all fun op => names.any fun n => op.1 == n.toList) &&
    (names.all fun n => (ops.filter fun op => op.1 == n.toList).length ≤ 1)

/-- A payload operand; it has no default. -/
def payloadOperand (name : String) (ops : List (List Char × List Char)) : Option (List Byte) :=
  match operandValue name ops with
  | none => none
  | some v => payloadValue v

/-- `mode=`, in the source's spelling; no default (R85, R95). -/
def modeOperand (ops : List (List Char × List Char)) : Option Mode :=
  match operandValue "mode" ops with
  | none => none
  | some v => if v = "ecb".toList then some .ecb else if v = "cbc".toList then some .cbc else none

/-- `pad=`, in the source's spelling, pkcs5 when omitted (R86, R95). -/
def padOperand (ops : List (List Char × List Char)) : Option PadScheme :=
  match operandValue "pad" ops with
  | none => some .pkcs5
  | some v =>
    if v = "pkcs5".toList then some .pkcs5
    else if v = "oneAndZeros".toList then some .oneAndZeros
    else if v = "lastByte".toList then some .lastByte
    else if v = "none".toList then some .none
    else if v = "spaces".toList then some .spaces
    else none

/-- `in=` or `ret=`: bytes or text, bytes when omitted (R95). -/
def typeOperand (name : String) (ops : List (List Char × List Char)) : Option TypeCode :=
  match operandValue name ops with
  | none => some .bytes
  | some v => if v = "bytes".toList then some .bytes else if v = "text".toList then some .text else none

/-! ### Lines -/

/-- The thirteen commands, by mnemonic and operands (R95). -/
def assembleCommand (mnemonic : List Char) (ops : List (List Char × List Char)) : Option Instr :=
  if mnemonic = "INIT".toList && operandsAre ["mode", "pad", "key"] ops then
    match modeOperand ops, padOperand ops, payloadOperand "key" ops with
    | some mode, some scheme, some key => some (.init mode scheme key)
    | _, _, _ => none
  else if mnemonic = "SET_IV".toList && operandsAre ["iv"] ops then (payloadOperand "iv" ops).map .setIv
  else if mnemonic = "ENCODE".toList && operandsAre ["data"] ops then (payloadOperand "data" ops).map .encode
  else if mnemonic = "DECODE".toList && operandsAre ["in", "ret", "data"] ops then
    match typeOperand "in" ops, typeOperand "ret" ops, payloadOperand "data" ops with
    | some itype, some rtype, some data => some (.decode itype rtype data)
    | _, _, _ => none
  else if mnemonic = "F_EVAL".toList && operandsAre ["x"] ops then (payloadOperand "x" ops).map .fEval
  else if mnemonic = "ENC_BLOCK".toList && operandsAre ["data"] ops then (payloadOperand "data" ops).map .encBlock
  else if mnemonic = "DEC_BLOCK".toList && operandsAre ["data"] ops then (payloadOperand "data" ops).map .decBlock
  else if mnemonic = "PAD".toList && operandsAre ["pad", "data"] ops then
    match padOperand ops, payloadOperand "data" ops with
    | some scheme, some data => some (.pad scheme data)
    | _, _ => none
  else if mnemonic = "UNPAD".toList && operandsAre ["pad", "data"] ops then
    match padOperand ops, payloadOperand "data" ops with
    | some scheme, some data => some (.unpad scheme data)
    | _, _ => none
  else if mnemonic = "ECB_ENC".toList && operandsAre ["data"] ops then (payloadOperand "data" ops).map .ecbEnc
  else if mnemonic = "ECB_DEC".toList && operandsAre ["data"] ops then (payloadOperand "data" ops).map .ecbDec
  else if mnemonic = "CBC_ENC".toList && operandsAre ["data"] ops then (payloadOperand "data" ops).map .cbcEnc
  else if mnemonic = "CBC_DEC".toList && operandsAre ["data"] ops then (payloadOperand "data" ops).map .cbcDec
  else none

/-- REKEY is exactly INIT (R96). -/
def rekeyExpansion (mode : Mode) (scheme : PadScheme) (key : List Byte) : Instr := .init mode scheme key

/-- DECODE_TEXT is DECODE with in=bytes and ret=text (R96). -/
def decodeTextExpansion (data : List Byte) : Instr := .decode .bytes .text data

/-- ENCODE_TEXT is ENCODE of the bytes that the host's own textToBytes gave for the text (R96; log entry 8). -/
def encodeTextExpansion (textBytes : List Byte) : Instr := .encode textBytes

/-- The pseudo-commands that name bytes (R96). ENCODE_TEXT names a text, which only the host can turn into bytes. -/
def assemblePseudo (mnemonic : List Char) (ops : List (List Char × List Char)) : Option Instr :=
  if mnemonic = "REKEY".toList && operandsAre ["mode", "pad", "key"] ops then
    match modeOperand ops, padOperand ops, payloadOperand "key" ops with
    | some mode, some scheme, some key => some (rekeyExpansion mode scheme key)
    | _, _, _ => none
  else if mnemonic = "DECODE_TEXT".toList && operandsAre ["data"] ops then
    (payloadOperand "data" ops).map decodeTextExpansion
  else none

/-- `.raw H=<8 hex digits> data=<hex>`: any frame, a legal one or not (R95). -/
def assembleRaw (ops : List (List Char × List Char)) : Option (List Byte) :=
  if operandsAre ["H", "data"] ops then
    match operandValue "H" ops, payloadOperand "data" ops with
    | some h, some data =>
      match hexBytes h with
      | some bs => if bs.length = 4 then some (frameBytes (be32 bs 0) data) else none
      | none => none
    | _, _ => none
  else none

/-- The frame bytes of a line of words. The assembler writes N = len(payload), and H from the opcode and field codes (R95). -/
def assembleWords : List (List Char) → Option (List Byte)
  | [] => none
  | mnemonic :: ws =>
    match splitOperands ws with
    | none => none
    | some ops =>
      if mnemonic = ".raw".toList then assembleRaw ops
      else match assembleCommand mnemonic ops with
        | some i => some (encode i)
        | none => (assemblePseudo mnemonic ops).map encode

/-- The frame bytes of a line of text; none for a line that is not of the syntax of R95 and R96. -/
def assembleLine (line : String) : Option (List Byte) := assembleWords (splitWords [] line.toList)

end Sys2Proof.Machine
end

