-- ==== Sys2Proof/Safety.lean ====
section
/-!
DEFINITION. The terms in which statements about the block are made: the invariant of its states, which states the host cannot
tell apart, and the order of checks of 60_exceptions.md R303 written over the raw header word.
-/
namespace Sys2Proof.Machine

/-! ### Invariant -/

/-- A response the block may have sent: an error carries no output and no TEXT bit (60_exceptions.md R301, 30_encoding.md R82, R83), and an
output is at most MAX_PAYLOAD_BYTES + 8 bytes (00_scope.md R11). -/
def Response.legal (p : Params) (r : Response) : Prop :=
  (r.status ≠ .ok → r.out = [] ∧ r.text = false) ∧ r.out.length ≤ p.maxPayloadBytes + 8

/-- What holds between commands: legal parameters (00_scope.md R10); an IV is valid only with a key; the tables of a keyed block are
those some accepted key derives (10_state.md R32); the responses sent are legal. -/
structure State.Inv (s : State) : Prop where
  params_wf : s.params.wf = true
  iv_keyed : s.ivValid = true → s.keyed = true
  keys_derived : s.keyed = true →
    ∃ key : List Byte, key ≠ [] ∧ key.length ≤ s.params.maxPayloadBytes ∧ s.keys = derive key
  responses_legal : ∀ r ∈ s.outbox, r.legal s.params

/-! ### What the host can tell apart -/

/-- Two states that differ at most in registers that hold no value (10_state.md R38, R39): MODE, PADDING, P and S while KEYED = 0, and
the IV while IV_VALID = 0. -/
structure State.SameReadable (s s' : State) : Prop where
  params : s.params = s'.params
  keyed : s.keyed = s'.keyed
  ivValid : s.ivValid = s'.ivValid
  inbox : s.inbox = s'.inbox
  outbox : s.outbox = s'.outbox
  configured : s.keyed = true → s.mode = s'.mode ∧ s.padding = s'.padding ∧ s.keys = s'.keys
  iv : s.ivValid = true → s.ivL = s'.ivL ∧ s.ivR = s'.ivR

/-! ### Blocks of a byte sequence -/

/-- B_k of a byte sequence (44_chaining.md R200): the block at byte offset 8k. -/
def blockAt (s : List Byte) (k : Nat) : Block := ⟨be32 s (8 * k), be32 s (8 * k + 4)⟩

/-! ### The bootstrap pass, step by step (40_key_schedule.md R123) -/

/-- The tables after a step of the bootstrap pass: the pair of its step index `t` (R34) is written, every other word is as
before. Steps 0 to 8 write P, step 9 + 128·b + j writes S[b]. -/
def WritesPair (t : Nat) (out : Block) (k k' : Schedule) : Prop :=
  (∀ i : Fin 18, k'.p.get i =
    if i.val = 2 * t then out.l else if i.val = 2 * t + 1 then out.r else k.p.get i) ∧
  (∀ (b : Fin 4) (x : Fin 256), (k'.s.get b).get x =
    if 9 + 128 * b.val ≤ t ∧ x.val = 2 * (t - (9 + 128 * b.val)) then out.l
    else if 9 + 128 * b.val ≤ t ∧ x.val = 2 * (t - (9 + 128 * b.val)) + 1 then out.r
    else (k.s.get b).get x)

/-! ### The order of checks (60_exceptions.md R303), over the raw header and payload -/

/-- The status of a list of checks: that of the first one that fails, OK when none does. -/
def firstFailure : List (Bool × Status) → Status
  | [] => .ok
  | (fails, status) :: rest => if fails then status else firstFailure rest

/-- The assigned OPC values (30_encoding.md R84). -/
def assignedOpcodes : List Byte :=
  [0x01, 0x02, 0x03, 0x04, 0x10, 0x11, 0x12, 0x13, 0x14, 0x15, 0x16, 0x17, 0x18]

/-- The OPC values of INIT, PAD and UNPAD: the commands whose header uses PAD (30_encoding.md R89), which are also the commands that need
no key (60_exceptions.md R303 step 4). -/
def padOpcodes : List Byte := [0x01, 0x13, 0x14]

/-- Step 1 of R303: the frame is an ILLEGAL_COMMAND. -/
def frameIllegal (p : Params) (h : Word) : Bool :=
  !assignedOpcodes.contains (headerOpc h) || (0x10 ≤ headerOpc h && headerOpc h ≤ 0x18 && !p.exposePrimitives)

/-- Step 3 of R303: the frame has a RESERVED_FIELD (30_encoding.md R89, R90). -/
def frameReserved (h : Word) : Bool :=
  headerRsvd h != 0 ||
    (headerOpc h != 0x01 && headerMode h != 0) ||
    (!padOpcodes.contains (headerOpc h) && headerPad h != 0) ||
    (headerOpc h != 0x04 && (headerItype h != 0 || headerRtype h != 0)) ||
    (padOpcodes.contains (headerOpc h) && 5 ≤ headerPad h)

/-- Step 5 of R303: the command's own checks, in the order its rule lists them. -/
def ownChecks (s : State) (h : Word) (payload : List Byte) : List (Bool × Status) :=
  let n := payload.length
  let noIv := !s.ivValid
  let noIvInCbc := s.mode == .cbc && !s.ivValid
  if headerOpc h = 0x01 then [(n == 0, .invalidKeyLength)]
  else if headerOpc h = 0x02 then [(n != 8, .invalidIvLength)]
  else if headerOpc h = 0x03 then
    [(noIvInCbc, .ivNotSet), (s.padding == .none && n % 8 != 0, .misalignedInput)]
  else if headerOpc h = 0x04 then
    [(2 ≤ headerItype h, .invalidInputType), (n % 8 != 0, .misalignedInput), (noIvInCbc, .ivNotSet),
      (2 ≤ headerRtype h, .unsupportedReturnType)]
  else if headerOpc h = 0x10 then [(n != 4, .payloadLength)]
  else if headerOpc h = 0x11 || headerOpc h = 0x12 then [(n != 8, .payloadLength)]
  else if headerOpc h = 0x15 || headerOpc h = 0x16 then [(n % 8 != 0, .misalignedInput)]
  else if headerOpc h = 0x17 then [(noIv, .ivNotSet), (n % 8 != 0, .misalignedInput)]
  else if headerOpc h = 0x18 then [(n % 8 != 0, .misalignedInput), (noIv, .ivNotSet)]
  else []

/-- All checks on a frame, in the order of R303. -/
def frameChecks (s : State) (h : Word) (payload : List Byte) : List (Bool × Status) :=
  [(frameIllegal s.params h, .illegalCommand), (s.params.maxPayloadBytes < payload.length, .payloadTooLarge),
    (frameReserved h, .reservedField),
    (!padOpcodes.contains (headerOpc h) && !s.keyed, .notInitialized)] ++ ownChecks s h payload

/-- No reset is marked to fall into the command that the events before these complete. -/
def noResetInCommand (later : List HostEvent) : Prop := ∀ rest, later ≠ .resetInCommand :: rest

end Sys2Proof.Machine
end

