-- ==== Sys2Proof/Certificates/Slice0/Obligations.lean ====
section
/-!
DEFINITION. What the provers are asked to prove or refute of the model. Each docstring names the rule of spec/ it states or rests
on.
-/
open Sys2Proof Sys2Proof.Machine

/-! ### Encoding -/

/-- Decode and encode agree (30_encoding.md R80, R81, R84 to R89, R94): the frame bytes of every well-formed command, whatever the host
sends after them, are received as one frame, and the decoder reads the command back from it. -/
def Obligations.DecodeOfEncodeGivesTheCommandBack : Prop :=
  ∀ (p : Params) (i : Instr) (later : List HostEvent),
    i.wellFormed p = true → noResetInCommand later →
      ∃ f, nextTransaction (sendBytes (encode i) ++ later) = .command f later ∧
        f.header = headerOf i ∧ f.length = i.payload.length ∧ f.payload = i.payload ∧ decodeFrame p f = .ok i

/-- Each accepted frame has one meaning (R94): encoding the command decoded from a frame gives the frame's bytes back, and the command is
well formed. -/
def Obligations.EncodeOfDecodeGivesTheFrameBack : Prop :=
  ∀ (p : Params) (h : Word) (payload : List Byte) (i : Instr),
    payload.length < 2 ^ 32 → decodeFrame p ⟨h, payload.length, payload⟩ = .ok i →
      encode i = frameBytes h payload ∧ i.wellFormed p = true

/-- spec/opcode_table.json against the decoder: a frame is accepted exactly when its payload is not too large and its header meets the mask
and match of a row that the parameters expose, with PAD ≤ 4 where the row uses it; the command is then the row's (R84, R89, R90, R94). -/
def Obligations.DecoderAcceptsExactlyTheTableRows : Prop :=
  ∀ (p : Params) (h : Word) (payload : List Byte) (i : Instr),
    decodeFrame p ⟨h, payload.length, payload⟩ = .ok i ↔
      payload.length ≤ p.maxPayloadBytes ∧
      ∃ row ∈ opcodeTable, h &&& row.mask = row.pattern ∧
        (opcodePrimitive row.opcode = true → p.exposePrimitives = true) ∧
        (opcodeUsesPad row.opcode = true → headerPad h ≤ 4) ∧
        ∃ scheme, padOfCode (headerPad h) = some scheme ∧
          i = commandOf row.opcode (modeOfCode (headerMode h)) scheme (typeOfCode (headerItype h))
            (typeOfCode (headerRtype h)) payload

/-- Header words of spec/opcode_table.json, written out bit by bit: each selects the command and the field values that R81 and R84 to R88
give it. That a 32-bit word is a whole frame, with N = 0 and so with the empty payload each conjunct shows, is the model's choice (log entry 7);
the frames with these headers in 95_test_vectors.md section 8 carry payloads. -/
def Obligations.WrittenOutWordsDecode : Prop :=
  decodeTableWord 32 0b00000000000000000000000100000001 = some (.init .cbc .pkcs5 []) ∧
  decodeTableWord 32 0b00000000000000000000100100000001 = some (.init .cbc .spaces []) ∧
  decodeTableWord 32 0b00000000000000000000000000000010 = some (.setIv []) ∧
  decodeTableWord 32 0b00000000000000000000000000000011 = some (.encode []) ∧
  decodeTableWord 32 0b00000000000000000100000000000100 = some (.decode .bytes .text []) ∧
  decodeTableWord 32 0b00000000000000000000000000010000 = some (.fEval []) ∧
  decodeTableWord 32 0b00000000000000000000000000010010 = some (.decBlock []) ∧
  decodeTableWord 32 0b00000000000000000000010000010011 = some (.pad .lastByte []) ∧
  decodeTableWord 32 0b00000000000000000000001000010100 = some (.unpad .oneAndZeros []) ∧
  decodeTableWord 32 0b00000000000000000000000000010101 = some (.ecbEnc []) ∧
  decodeTableWord 32 0b00000000000000000000000000011000 = some (.cbcDec [])

/-! ### The command port -/

/-- A step runs the decoded command: when the host's queue begins with the frame of a well-formed command, the step takes that frame and
is `exec` of the command, with nothing else around it (R66, R80, R94, R360). The log entries 3 and 6 name the queue and the one-step command. -/
def Obligations.StepRunsTheDecodedCommand : Prop :=
  ∀ (s : State) (i : Instr) (later : List HostEvent),
    i.wellFormed s.params = true → noResetInCommand later → s.inbox = sendBytes (encode i) ++ later →
      step s = exec i { s with inbox := later }

/-- A frame the decoder rejects is consumed and answered with its status, and no state of the block is written (R90, R92, R302). -/
def Obligations.RejectedFrameReportsItsStatusOnly : Prop :=
  ∀ (s : State) (h : Word) (payload : List Byte) (later : List HostEvent) (e : Reject),
    payload.length < 2 ^ 32 → noResetInCommand later → s.inbox = sendBytes (frameBytes h payload) ++ later →
      decodeFrame s.params ⟨h, payload.length, payload⟩ = .error e →
        step s = .next { s with inbox := later, outbox := s.outbox ++ [⟨rejectStatus e, false, []⟩] }

/-- "A frame that is never completed leaves the block waiting" (70_reset_and_hazards.md R361, 30_encoding.md R80): while fewer than 8 bytes, or
fewer than 8 + N, have arrived, a step leaves the state as it is. -/
def Obligations.IncompleteFrameWaits : Prop :=
  ∀ (s : State) (bs : List Byte),
    s.inbox = sendBytes bs → (bs.length < 8 ∨ bs.length < 8 + (be32 bs 4).toNat) → step s = .next s

/-- Reset at any time (R350, R39): between frames, in the middle of a frame (the part received is discarded), or inside the command of a
complete frame (its response is never sent). KEYED and IV_VALID are then 0. -/
def Obligations.ResetAbandonsWhateverIsInProgress : Prop :=
  ∀ (s : State) (bs : List Byte) (later : List HostEvent),
    ((s.inbox = sendBytes bs ++ .reset :: later ∧ (bs.length < 8 ∨ bs.length < 8 + (be32 bs 4).toNat)) ∨
      (s.inbox = sendBytes bs ++ .resetInCommand :: later ∧ 8 ≤ bs.length ∧ bs.length = 8 + (be32 bs 4).toNat)) →
      ∃ t, step s = .next t ∧ t.keyed = false ∧ t.ivValid = false ∧ t.inbox = later ∧
        t.outbox = s.outbox ∧ t.params = s.params

/-- Frames run one at a time in the order the host delivers them, each on the state the one before left (20_memory.md R66): running as many
steps as there are frames folds `exec` over their commands. -/
def Obligations.FramesRunInArrivalOrder : Prop :=
  ∀ (s : State) (is : List Instr),
    (∀ i ∈ is, i.wellFormed s.params = true) → s.inbox = sendBytes (is.flatMap encode) →
      core.run is.length s =
        is.foldl (fun (r : Result) i => match r with | .next t => exec i t | other => other)
          (.next { s with inbox := [] })

/-- The order of all checks (60_exceptions.md R303): the status a complete frame gets is that of the first check that fails, in the order R303
lists them, and OK when none fails. -/
def Obligations.StatusIsThatOfTheFirstFailingCheck : Prop :=
  ∀ (s : State) (h : Word) (payload : List Byte) (later : List HostEvent),
    payload.length < 2 ^ 32 → noResetInCommand later → s.inbox = sendBytes (frameBytes h payload) ++ later →
      ∃ t r, step s = .next t ∧ t.outbox = s.outbox ++ [r] ∧ r.status = firstFailure (frameChecks s h payload)

/-- EXPOSE_PRIMITIVES (00_scope.md R12): with 0 every primitive opcode is an illegal command; with 1 none is; and the façade opcodes decode the
same under either value. -/
def Obligations.ExposePrimitivesGatesOnlyThePrimitives : Prop :=
  ∀ (n : Nat) (f : Frame),
    (0x10 ≤ headerOpc f.header ∧ headerOpc f.header ≤ 0x18 →
      decodeFrame ⟨n, false⟩ f = .error .illegalCommand ∧ decodeFrame ⟨n, true⟩ f ≠ .error .illegalCommand) ∧
    (0x01 ≤ headerOpc f.header ∧ headerOpc f.header ≤ 0x04 →
      decodeFrame ⟨n, false⟩ f = decodeFrame ⟨n, true⟩ f ∧ decodeFrame ⟨n, false⟩ f ≠ .error .illegalCommand)

/-! ### Whole-machine rules -/

/-- The invariant of R10, R11, R32, R82 and R301 is kept by every step, from every state that meets it. -/
def Obligations.InvariantIsKeptByEveryStep : Prop :=
  ∀ s t : State, s.Inv → step s = .next t → t.Inv

/-- The invariant holds after reset, for all legal parameters (R39). -/
def Obligations.InvariantHoldsAfterReset : Prop :=
  State.reset.Inv ∧ ∀ p : Params, p.wf = true → (State.resetWith p).Inv

/-- Every step from every state answers a next state. For a state whose next frame is complete this rests on the spec: every command
terminates, and after any response the block goes on (R360, R306). For a state with no complete frame (State.reset among them) the spec says that
the block waits (R361); that this waiting is a step to the same state is the model's choice (log entry 4). -/
def Obligations.EveryStepAnswersANextState : Prop :=
  ∀ s : State, ∃ t, step s = .next t

/-- Every command, in every state, answers with exactly one response, appended to those sent before, and takes nothing more from the
host (R82, R304). -/
def Obligations.EveryCommandSendsExactlyOneResponse : Prop :=
  ∀ (i : Instr) (s : State), ∃ t r,
    exec i s = .next t ∧ t.outbox = s.outbox ++ [r] ∧ t.inbox = s.inbox ∧ t.params = s.params

/-- Which commands write which state (10_state.md R29), the frame of all thirteen: a command that does not report OK writes nothing; INIT writes
KEYED, IV_VALID, MODE, PADDING, P and S; SET_IV writes IV and IV_VALID; every other command writes nothing. -/
def Obligations.CommandsWriteOnlyWhatTheyOwn : Prop :=
  ∀ (i : Instr) (s t : State) (r : Response),
    exec i s = .next t → t.outbox = s.outbox ++ [r] →
      if r.status = .ok then
        match i with
        | .init mode scheme key =>
          t = { s with keyed := true, ivValid := false, mode := mode, padding := scheme, keys := derive key,
                       outbox := s.outbox ++ [r] }
        | .setIv iv => t = { s with ivValid := true, ivL := be32 iv 0, ivR := be32 iv 4, outbox := s.outbox ++ [r] }
        | _ => t = { s with outbox := s.outbox ++ [r] }
      else t = { s with outbox := s.outbox ++ [r] }

/-- An error writes no state and its response carries nothing but the code (60_exceptions.md R302, R301), for a command as it runs, and for a
complete frame whichever check it fails: the state is the one before the frame arrived, with the frame taken from the host and
the response sent. -/
def Obligations.FailedCommandChangesNothing : Prop :=
  (∀ (i : Instr) (s t : State) (r : Response),
    exec i s = .next t → t.outbox = s.outbox ++ [r] → r.status ≠ .ok →
      r.out = [] ∧ r.text = false ∧ t = { s with outbox := s.outbox ++ [r] }) ∧
  ∀ (s t : State) (h : Word) (payload : List Byte) (later : List HostEvent) (r : Response),
    payload.length < 2 ^ 32 → noResetInCommand later → s.inbox = sendBytes (frameBytes h payload) ++ later →
      step s = .next t → t.outbox = s.outbox ++ [r] → r.status ≠ .ok →
        r.out = [] ∧ r.text = false ∧ t = { s with inbox := later, outbox := s.outbox ++ [r] }

/-- KEYED gates every command but INIT, PAD and UNPAD (R23): without a key each of the others reports NOT_INITIALIZED and changes
nothing; those three never report it. -/
def Obligations.KeyGatesAllButInitPadUnpad : Prop :=
  ∀ (i : Instr) (s : State), s.keyed = false →
    match i with
    | .init _ _ _ | .pad _ _ | .unpad _ _ =>
      ∃ t r, exec i s = .next t ∧ t.outbox = s.outbox ++ [r] ∧ r.status ≠ .notInitialized
    | _ => exec i s = .next { s with outbox := s.outbox ++ [⟨.notInitialized, false, []⟩] }

/-- No command can read a register that holds no value (10_state.md R38): two states that differ only in MODE, PADDING, P and S while KEYED = 0,
and in the IV while IV_VALID = 0, answer every step with the same responses and stay as alike. So nothing rests on the values that
log entry 2 gives those registers at reset. -/
def Obligations.UnwrittenRegistersAreUnreadable : Prop :=
  ∀ s s' t t' : State, s.SameReadable s' → step s = .next t → step s' = .next t' → t.SameReadable t'

/-- Idempotency (20_memory.md R65): a command repeated gives the same response again and changes nothing further; a command other than INIT and
SET_IV changes nothing the first time either; and INIT with the same fields and key leaves the same configuration and tables whatever
state it starts from. -/
def Obligations.CommandsAreIdempotent : Prop :=
  (∀ (i : Instr) (s t : State), exec i s = .next t →
    ∃ r, t.outbox = s.outbox ++ [r] ∧ exec i t = .next { t with outbox := t.outbox ++ [r] }) ∧
  (∀ (i : Instr) (s t : State), (∀ mode scheme key, i ≠ .init mode scheme key) → (∀ iv, i ≠ .setIv iv) →
    exec i s = .next t → ∃ r, t = { s with outbox := s.outbox ++ [r] }) ∧
  (∀ (mode : Mode) (scheme : PadScheme) (key : List Byte) (s s' t t' : State), key ≠ [] →
    exec (.init mode scheme key) s = .next t → exec (.init mode scheme key) s' = .next t' →
      t.keyed = t'.keyed ∧ t.ivValid = t'.ivValid ∧ t.mode = t'.mode ∧ t.padding = t'.padding ∧ t.keys = t'.keys)

/-! ### Responses -/

/-- The status codes, which commands can report each, and no code but these (60_exceptions.md R300). ILLEGAL_COMMAND, RESERVED_FIELD and
PAYLOAD_TOO_LARGE come from the frame checks alone. -/
def Obligations.StatusCodesAndWhoReportsThem : Prop :=
  ([Status.ok, .invalidIvLength, .ivNotSet, .invalidInputType, .misalignedInput, .unsupportedReturnType, .invalidKeyLength,
      .illegalCommand, .reservedField, .notInitialized, .payloadLength, .payloadTooLarge].map statusCode =
    [0x00, 0x01, 0x02, 0x03, 0x04, 0x05, 0x06, 0x80, 0x81, 0x82, 0x83, 0x84]) ∧
  ∀ (i : Instr) (s t : State) (r : Response), exec i s = .next t → t.outbox = s.outbox ++ [r] →
    match r.status with
    | .ok => True
    | .invalidIvLength => ∃ iv, i = .setIv iv ∧ iv.length ≠ 8
    | .ivNotSet => s.ivValid = false ∧
        ((s.mode = .cbc ∧ ((∃ d, i = .encode d) ∨ ∃ it rt d, i = .decode it rt d)) ∨
          (∃ d, i = .cbcEnc d) ∨ ∃ d, i = .cbcDec d)
    | .invalidInputType => ∃ it rt d, i = .decode it rt d ∧ (it = .neither2 ∨ it = .neither3)
    | .misalignedInput => i.payload.length % 8 ≠ 0 ∧
        ((∃ d, i = .encode d ∧ s.padding = .none) ∨ (∃ it rt d, i = .decode it rt d) ∨
          (∃ d, i = .ecbEnc d) ∨ (∃ d, i = .ecbDec d) ∨ (∃ d, i = .cbcEnc d) ∨ ∃ d, i = .cbcDec d)
    | .unsupportedReturnType => ∃ it rt d, i = .decode it rt d ∧ (rt = .neither2 ∨ rt = .neither3)
    | .invalidKeyLength => ∃ mode scheme, i = .init mode scheme []
    | .illegalCommand | .reservedField | .payloadTooLarge => False
    | .notInitialized => s.keyed = false ∧ (∀ mode scheme key, i ≠ .init mode scheme key) ∧
        (∀ scheme d, i ≠ .pad scheme d) ∧ ∀ scheme d, i ≠ .unpad scheme d
    | .payloadLength => (∃ d, i = .fEval d ∧ d.length ≠ 4) ∨
        (∃ d, i = .encBlock d ∧ d.length ≠ 8) ∨ ∃ d, i = .decBlock d ∧ d.length ≠ 8

/-- The status word (30_encoding.md R83): STATUS in bits 7:0, TEXT in bit 8, 0 above; and TEXT is 1 exactly for a successful DECODE with
RTYPE = 1. -/
def Obligations.StatusWordLayoutAndTextBit : Prop :=
  (∀ r : Response, (statusWord r).extractLsb' 0 8 = statusCode r.status ∧ (statusWord r).getLsbD 8 = r.text ∧
    (statusWord r).extractLsb' 9 23 = 0) ∧
  (∀ (i : Instr) (s t : State) (r : Response), exec i s = .next t → t.outbox = s.outbox ++ [r] →
    (r.text = true ↔ r.status = .ok ∧ ∃ it d, i = .decode it .text d))

/-- The response frame (R82, R61): ST and M most significant byte first, then the M output bytes; a response that is not OK has M = 0. -/
def Obligations.ResponseFrameLayout : Prop :=
  (∀ r : Response, r.out.length < 2 ^ 32 →
    responseBytes r = bytes32 (statusWord r) ++ bytes32 (BitVec.ofNat 32 r.out.length) ++ r.out ∧
    be32 (responseBytes r) 0 = statusWord r ∧ (be32 (responseBytes r) 4).toNat = r.out.length ∧
    (responseBytes r).drop 8 = r.out) ∧
  (∀ (i : Instr) (s t : State) (r : Response), exec i s = .next t → t.outbox = s.outbox ++ [r] →
    r.status ≠ .ok → (responseBytes r).drop 4 = [0, 0, 0, 0])

/-- The control registers CR0 to CR3 (10_state.md R28): each field at its bits, PADDING at most 4, reserved bits 0. -/
def Obligations.ControlRegisterFields : Prop :=
  ∀ s : State,
    (cr0 s).extractLsb' 0 1 = modeCode s.mode ∧ (cr0 s).extractLsb' 1 3 = padCode s.padding ∧
    (cr0 s).extractLsb' 1 3 ≤ 4 ∧ (cr0 s).extractLsb' 4 28 = 0 ∧
    (cr1 s).getLsbD 0 = s.keyed ∧ (cr1 s).getLsbD 1 = s.ivValid ∧ (cr1 s).extractLsb' 2 30 = 0 ∧
    cr2 s = s.ivL ∧ cr3 s = s.ivR

/-! ### Key schedule -/

/-- The ROM's layout (20_memory.md R54): P_INIT is its first 18 words, table b of S_INIT its words from 18 + 256·b. -/
def Obligations.RomLayout : Prop :=
  rom.length = 1042 ∧ (∀ i : Fin 18, rom[i.val]? = some (pInit.get i)) ∧
    ∀ (b : Fin 4) (j : Fin 256), rom[18 + 256 * b.val + j.val]? = some ((sInit.get b).get j)

/-- Key expansion (40_key_schedule.md R120): 72 bytes, K[j] = key[j mod n]; a key of 72 bytes or more is cut to its first 72. -/
def Obligations.KeyExpansionRepeatsAndCutsTheKey : Prop :=
  ∀ key : List Byte, key ≠ [] →
    (expandKey key).length = 72 ∧ (∀ j, j < 72 → (expandKey key)[j]? = key[j % key.length]?) ∧
      (72 ≤ key.length → expandKey key = key.take 72)

/-- Key mixing (R122): P[i] is exclusive-ored with the i-th big-endian word of the expanded key, and S is not touched. -/
def Obligations.KeyMixingXorsBigEndianWords : Prop :=
  ∀ (expanded : List Byte) (k : Schedule),
    (∀ i : Fin 18, (mixKey expanded k).p.get i = k.p.get i ^^^ be32 expanded (4 * i.val)) ∧
      (mixKey expanded k).s = k.s

/-- The bootstrap pass (R123, R124): 521 steps in order from the mixed tables and the running block (0, 0); each evaluates E on the tables
and the running block as the step before left them, and writes the pair of its index. -/
def Obligations.BootstrapPassIsAStrictSequence : Prop :=
  ∀ key : List Byte, ∃ (tables : Nat → Schedule) (run : Nat → Block),
    tables 0 = mixKey (expandKey key) ⟨pInit, sInit⟩ ∧ run 0 = ⟨0, 0⟩ ∧
    (∀ t, t < 521 → run (t + 1) = encryptBlock (tables t) (run t) ∧ WritesPair t (run (t + 1)) (tables t) (tables (t + 1))) ∧
    derive key = tables 521

/-- Equivalent keys (R128): keys of equal expansion derive the same tables; so do a key and its repetitions, and a key of 72 bytes or more and
its first 72, whatever follows them; and below 72 bytes some extension changes the expansion. -/
def Obligations.KeysOfEqualExpansionAreEquivalent : Prop :=
  (∀ key key' : List Byte, expandKey key = expandKey key' → derive key = derive key') ∧
  (∀ (key : List Byte) (m : Nat), key ≠ [] → 0 < m → derive (List.replicate m key).flatten = derive key) ∧
  (∀ key extra : List Byte, 72 ≤ key.length → derive key = derive (key.take 72) ∧ derive (key ++ extra) = derive key) ∧
  (∀ key : List Byte, key ≠ [] → key.length < 72 → ∃ extra, expandKey (key ++ extra) ≠ expandKey key)

/-- INIT (R126, R127): with a key it derives P and S, latches MODE and PADDING, sets KEYED and clears IV_VALID, keeps the IV's bits, and responds
OK with no output, in every state; with the empty key it reports INVALID_KEY_LENGTH and changes nothing. -/
def Obligations.InitDerivesAndLatches : Prop :=
  ∀ (mode : Mode) (scheme : PadScheme) (key : List Byte) (s : State),
    (key ≠ [] → exec (.init mode scheme key) s = .next
      { s with keyed := true, ivValid := false, mode := mode, padding := scheme, keys := derive key,
               outbox := s.outbox ++ [⟨.ok, false, []⟩] }) ∧
    exec (.init mode scheme []) s = .next { s with outbox := s.outbox ++ [⟨.invalidKeyLength, false, []⟩] }

/-! ### Round function and block transform -/

/-- F and F_EVAL (41_round_function.md R140, R141, R144): on a keyed block the four payload bytes, most significant first, index S[0] to S[3]; the
output is ((S[0][a] + S[1][b]) ⊕ S[2][c]) + S[3][d] modulo 2^32, most significant byte first, and nothing else changes. -/
def Obligations.FEvalComputesTheRoundFunction : Prop :=
  ∀ (s : State) (a b c d : Byte), s.keyed = true →
    exec (.fEval [a, b, c, d]) s = .next { s with outbox := s.outbox ++ [⟨.ok, false,
      bytes32 ((((s.keys.s.get 0).get a.toFin + (s.keys.s.get 1).get b.toFin) ^^^ (s.keys.s.get 2).get c.toFin) +
        (s.keys.s.get 3).get d.toFin)⟩] }

/-- E (42_block_transform.md R150): sixteen rounds with P[0] to P[15], and at the end the halves crossed over and mixed with P[17] and P[16]. -/
def Obligations.EncryptBlockIsSixteenRounds : Prop :=
  ∀ (k : Schedule) (b : Block), ∃ h : Nat → Block, h 0 = b ∧
    (∀ i : Fin 16, h (i.val + 1) =
      ⟨(h i.val).r ^^^ roundFunction k ((h i.val).l ^^^ k.p.get (i.castLE (Nat.le_add_right 16 2))),
        (h i.val).l ^^^ k.p.get (i.castLE (Nat.le_add_right 16 2))⟩) ∧
    encryptBlock k b = ⟨(h 16).r ^^^ k.p.get 17, (h 16).l ^^^ k.p.get 16⟩

/-- D (R151): sixteen rounds with P[17] down to P[2], then P[1] into the right half and P[0] into the left. -/
def Obligations.DecryptBlockIsSixteenRoundsDescending : Prop :=
  ∀ (k : Schedule) (b : Block), ∃ h : Nat → Block, h 0 = b ∧
    (∀ i : Fin 16, h (i.val + 1) =
      ⟨(h i.val).r ^^^ roundFunction k ((h i.val).l ^^^ k.p.get (i.castLE (Nat.le_add_right 16 2)).rev),
        (h i.val).l ^^^ k.p.get (i.castLE (Nat.le_add_right 16 2)).rev⟩) ∧
    decryptBlock k b = ⟨(h 16).r ^^^ k.p.get 0, (h 16).l ^^^ k.p.get 1⟩

/-- The inverse law (R152): D undoes E and E undoes D, for any contents of P and S; and D is E with the subkeys reversed. -/
def Obligations.BlockTransformsAreInverse : Prop :=
  ∀ (k : Schedule) (b : Block), decryptBlock k (encryptBlock k b) = b ∧ encryptBlock k (decryptBlock k b) = b ∧
    decryptBlock k b = encryptBlock { k with p := Vector.ofFn fun i => k.p.get i.rev } b

/-- ENC_BLOCK and DEC_BLOCK (R154, R155): on a keyed block and 8 bytes they answer E and D of the block, and change nothing else. -/
def Obligations.BlockCommandsAnswerTheTransforms : Prop :=
  ∀ (s : State) (data : List Byte), s.keyed = true → data.length = 8 →
    exec (.encBlock data) s = .next { s with outbox := s.outbox ++ [⟨.ok, false,
      bytes32 (encryptBlock s.keys ⟨be32 data 0, be32 data 4⟩).l ++
        bytes32 (encryptBlock s.keys ⟨be32 data 0, be32 data 4⟩).r⟩] } ∧
    exec (.decBlock data) s = .next { s with outbox := s.outbox ++ [⟨.ok, false,
      bytes32 (decryptBlock s.keys ⟨be32 data 0, be32 data 4⟩).l ++
        bytes32 (decryptBlock s.keys ⟨be32 data 0, be32 data 4⟩).r⟩] }

/-- The corner cases of R154 and R155: ENC_BLOCK equals ECB_ENC on 8 bytes, and DEC_BLOCK of its output gives the block back. -/
def Obligations.DecBlockUndoesEncBlock : Prop :=
  ∀ (s t : State) (data : List Byte) (r : Response), s.keyed = true → data.length = 8 →
    exec (.encBlock data) s = .next t → t.outbox = s.outbox ++ [r] →
      exec (.ecbEnc data) s = .next t ∧
      exec (.decBlock r.out) t = .next { t with outbox := t.outbox ++ [⟨.ok, false, data⟩] }

/-- A wrong payload length (R144, R154, R155, R220): on a keyed block F_EVAL, ENC_BLOCK, DEC_BLOCK and SET_IV report it and change nothing. -/
def Obligations.WrongPayloadLengthsAreReported : Prop :=
  ∀ (s : State) (data : List Byte), s.keyed = true →
    (data.length ≠ 4 → exec (.fEval data) s = .next { s with outbox := s.outbox ++ [⟨.payloadLength, false, []⟩] }) ∧
    (data.length ≠ 8 →
      exec (.encBlock data) s = .next { s with outbox := s.outbox ++ [⟨.payloadLength, false, []⟩] } ∧
      exec (.decBlock data) s = .next { s with outbox := s.outbox ++ [⟨.payloadLength, false, []⟩] } ∧
      exec (.setIv data) s = .next { s with outbox := s.outbox ++ [⟨.invalidIvLength, false, []⟩] })

/-! ### Padding -/

/-- The five encoders (43_padding.md R170 to R175) in terms of the input's length n and c = 8 − (n mod 8). -/
def Obligations.PaddingEncoders : Prop :=
  ∀ s : List Byte,
    padBytes .pkcs5 s = s ++ List.replicate (8 - s.length % 8) (BitVec.ofNat 8 (8 - s.length % 8)) ∧
    padBytes .none s = s ∧
    (s.length ≠ 0 ∧ s.length % 8 = 0 →
      padBytes .oneAndZeros s = s ∧ padBytes .lastByte s = s ∧ padBytes .spaces s = s) ∧
    (s.length = 0 ∨ s.length % 8 ≠ 0 →
      padBytes .oneAndZeros s = s ++ [0x80] ++ List.replicate (7 - s.length % 8) 0x00 ∧
      padBytes .lastByte s =
        s ++ List.replicate (7 - s.length % 8) 0x00 ++ [BitVec.ofNat 8 (8 - s.length % 8)] ∧
      padBytes .spaces s = s ++ List.replicate (8 - s.length % 8) 0x20)

/-- The encoder's laws (R176). -/
def Obligations.PaddingEncoderLaws : Prop :=
  ∀ (σ : PadScheme) (s : List Byte),
    s.length ≤ (padBytes σ s).length ∧ (padBytes σ s).length ≤ s.length + 8 ∧
    (σ ≠ .none → (padBytes σ s).length % 8 = 0) ∧
    (σ = .none → ((padBytes σ s).length % 8 = 0 ↔ s.length % 8 = 0)) ∧
    s <+: padBytes σ s ∧
    (padBytes σ []).length = (if σ = .none then 0 else 8)

/-- The PKCS5 and LastByte decoders (R177, R178): the last byte v counts the bytes to remove, when v ≤ 8 and v ≤ n. -/
def Obligations.CountedDecoders : Prop :=
  ∀ (σ : PadScheme), σ = .pkcs5 ∨ σ = .lastByte →
    unpadBytes σ [] = [] ∧
    ∀ (init : List Byte) (v : Byte),
      unpadBytes σ (init ++ [v]) =
        if v.toNat ≤ 8 ∧ v.toNat ≤ init.length + 1 then (init ++ [v]).take (init.length + 1 - v.toNat) else init ++ [v]

/-- The OneAndZeros decoder (R179): a 0x80 followed only by zeros, all within the last 8 bytes, is removed with what follows it; without such a
marker nothing is. -/
def Obligations.OneAndZerosDecoder : Prop :=
  (∀ (u : List Byte) (z : Nat), z ≤ 7 → unpadBytes .oneAndZeros (u ++ [0x80] ++ List.replicate z 0x00) = u) ∧
  (∀ s : List Byte, (¬ ∃ (u : List Byte) (z : Nat), z ≤ 7 ∧ s = u ++ [0x80] ++ List.replicate z 0x00) →
    unpadBytes .oneAndZeros s = s)

/-- The Spaces decoder (R180): the trailing 0x20 bytes are removed, at most 8 of them. -/
def Obligations.SpacesDecoder : Prop :=
  ∀ s : List Byte, ∃ k, k ≤ 8 ∧ s = unpadBytes .spaces s ++ List.replicate k 0x20 ∧
    (k = 8 ∨ (unpadBytes .spaces s).getLast? ≠ some 0x20)

/-- The decoder never fails (R181, R182): it answers a prefix of its input with at most 8 bytes removed, and None removes nothing. -/
def Obligations.DecoderAnswersAPrefix : Prop :=
  ∀ (σ : PadScheme) (s : List Byte),
    unpadBytes σ s <+: s ∧ s.length ≤ (unpadBytes σ s).length + 8 ∧ unpadBytes .none s = s

/-- The padding round trip holds exactly under the conditions of R183. -/
def Obligations.PaddingRoundTripsExactlyWhen : Prop :=
  ∀ p : List Byte,
    unpadBytes .pkcs5 (padBytes .pkcs5 p) = p ∧
    unpadBytes .none (padBytes .none p) = p ∧
    (unpadBytes .oneAndZeros (padBytes .oneAndZeros p) = p ↔
      ¬(0 < p.length ∧ p.length % 8 = 0 ∧
        ∃ (u : List Byte) (z : Nat), z ≤ 7 ∧ p = u ++ [0x80] ++ List.replicate z 0x00)) ∧
    (unpadBytes .lastByte (padBytes .lastByte p) = p ↔
      ¬(0 < p.length ∧ p.length % 8 = 0 ∧ ∃ v, p.getLast? = some v ∧ 1 ≤ v.toNat ∧ v.toNat ≤ 8)) ∧
    (unpadBytes .spaces (padBytes .spaces p) = p ↔ p.length = 0 ∨ p.getLast? ≠ some 0x20)

/-- PAD and UNPAD (R184, R185) answer in every state, keyed or not, with the scheme of their own header, and change nothing else. -/
def Obligations.PadAndUnpadNeedNoKey : Prop :=
  ∀ (σ : PadScheme) (data : List Byte) (s : State),
    exec (.pad σ data) s = .next { s with outbox := s.outbox ++ [⟨.ok, false, padBytes σ data⟩] } ∧
    exec (.unpad σ data) s = .next { s with outbox := s.outbox ++ [⟨.ok, false, unpadBytes σ data⟩] }

/-! ### Chaining -/

/-- ECB_ENC and ECB_DEC (44_chaining.md R200, R202, R203, R208, R209): on a keyed block and a whole number of blocks the output has the input's
length, and each of its blocks is E, or D, of the input's block at its place. Nothing else changes. -/
def Obligations.EcbCommandsTransformEachBlock : Prop :=
  ∀ (s : State) (data : List Byte), s.keyed = true → data.length % 8 = 0 →
    (∃ out, exec (.ecbEnc data) s = .next { s with outbox := s.outbox ++ [⟨.ok, false, out⟩] } ∧
      out.length = data.length ∧
      ∀ k, 8 * k < data.length → blockAt out k = encryptBlock s.keys (blockAt data k)) ∧
    (∃ out, exec (.ecbDec data) s = .next { s with outbox := s.outbox ++ [⟨.ok, false, out⟩] } ∧
      out.length = data.length ∧
      ∀ k, 8 * k < data.length → blockAt out k = decryptBlock s.keys (blockAt data k))

/-- CBC_ENC (R204, R210): the first block is mixed with the IV, each later one with the ciphertext block before it, and then encrypted. The IV
and everything else stays as it was (R206). -/
def Obligations.CbcEncChainsOnTheCiphertext : Prop :=
  ∀ (s : State) (data : List Byte), s.keyed = true → s.ivValid = true → data.length % 8 = 0 →
    ∃ out, exec (.cbcEnc data) s = .next { s with outbox := s.outbox ++ [⟨.ok, false, out⟩] } ∧
      out.length = data.length ∧
      (0 < data.length → blockAt out 0 =
        encryptBlock s.keys ⟨(blockAt data 0).l ^^^ s.ivL, (blockAt data 0).r ^^^ s.ivR⟩) ∧
      ∀ k, 8 * (k + 1) < data.length → blockAt out (k + 1) = encryptBlock s.keys
        ⟨(blockAt data (k + 1)).l ^^^ (blockAt out k).l, (blockAt data (k + 1)).r ^^^ (blockAt out k).r⟩

/-- CBC_DEC (R205, R211): each block is decrypted and mixed with the input's block before it, the first with the IV. The IV and everything else
stays as it was (R206). -/
def Obligations.CbcDecChainsOnTheInput : Prop :=
  ∀ (s : State) (data : List Byte), s.keyed = true → s.ivValid = true → data.length % 8 = 0 →
    ∃ out, exec (.cbcDec data) s = .next { s with outbox := s.outbox ++ [⟨.ok, false, out⟩] } ∧
      out.length = data.length ∧
      (0 < data.length → blockAt out 0 =
        ⟨(decryptBlock s.keys (blockAt data 0)).l ^^^ s.ivL, (decryptBlock s.keys (blockAt data 0)).r ^^^ s.ivR⟩) ∧
      ∀ k, 8 * (k + 1) < data.length → blockAt out (k + 1) =
        ⟨(decryptBlock s.keys (blockAt data (k + 1))).l ^^^ (blockAt data k).l,
          (decryptBlock s.keys (blockAt data (k + 1))).r ^^^ (blockAt data k).r⟩

/-- The alignment check (R201, R208 to R211): on a keyed block, a payload that is no whole number of blocks makes each driver command report
MISALIGNED_INPUT and change nothing, CBC_ENC only once an IV is set; with no IV, CBC_ENC reports IV_NOT_SET on any payload, and
CBC_DEC on a whole number of blocks. -/
def Obligations.DriverCommandsReportMisuse : Prop :=
  ∀ (s : State) (data : List Byte), s.keyed = true →
    (data.length % 8 ≠ 0 →
      exec (.ecbEnc data) s = .next { s with outbox := s.outbox ++ [⟨.misalignedInput, false, []⟩] } ∧
      exec (.ecbDec data) s = .next { s with outbox := s.outbox ++ [⟨.misalignedInput, false, []⟩] } ∧
      exec (.cbcDec data) s = .next { s with outbox := s.outbox ++ [⟨.misalignedInput, false, []⟩] } ∧
      (s.ivValid = true →
        exec (.cbcEnc data) s = .next { s with outbox := s.outbox ++ [⟨.misalignedInput, false, []⟩] })) ∧
    (s.ivValid = false →
      exec (.cbcEnc data) s = .next { s with outbox := s.outbox ++ [⟨.ivNotSet, false, []⟩] } ∧
      (data.length % 8 = 0 →
        exec (.cbcDec data) s = .next { s with outbox := s.outbox ++ [⟨.ivNotSet, false, []⟩] }))

/-- The driver laws (R207), (a) to (e). -/
def Obligations.DriverLaws : Prop :=
  ∀ (k : Schedule) (iv : Block) (s : List Byte), s.length % 8 = 0 →
    -- (a) decryption undoes encryption
    ecbDecrypt k (ecbEncrypt k s) = s ∧ cbcDecrypt k iv (cbcEncrypt k iv s) = s ∧
    -- (b) identical plaintext blocks give identical ECB ciphertext blocks
    (∀ m n, 8 * m < s.length → 8 * n < s.length → blockAt s m = blockAt s n →
      blockAt (ecbEncrypt k s) m = blockAt (ecbEncrypt k s) n) ∧
    -- (c) under an all-zero IV the first CBC ciphertext block is the ECB one
    (0 < s.length → blockAt (cbcEncrypt k ⟨0, 0⟩ s) 0 = blockAt (ecbEncrypt k s) 0) ∧
    -- (d) an IV that differs by Δ changes block 0 by exactly Δ, and no later block
    (∀ δ : Block,
      (0 < s.length → blockAt (cbcDecrypt k (xorBlock iv δ) s) 0 = xorBlock (blockAt (cbcDecrypt k iv s) 0) δ) ∧
      (cbcDecrypt k (xorBlock iv δ) s).drop 8 = (cbcDecrypt k iv s).drop 8) ∧
    -- (e) a change to ciphertext block j affects only output blocks j and j + 1
    (∀ (s' : List Byte) (j : Nat), s'.length = s.length →
      (∀ n, 8 * n < s.length → n ≠ j → blockAt s' n = blockAt s n) →
        ∀ n, 8 * n < s.length → n ≠ j → n ≠ j + 1 → blockAt (cbcDecrypt k iv s') n = blockAt (cbcDecrypt k iv s) n)

/-! ### Façade -/

/-- SET_IV (45_facade.md R220): on a keyed block and 8 bytes, in either mode, both halves of the IV are the payload's big-endian words and IV_VALID
is 1; nothing else changes. -/
def Obligations.SetIvWritesBothHalves : Prop :=
  ∀ (s : State) (b0 b1 b2 b3 b4 b5 b6 b7 : Byte), s.keyed = true →
    exec (.setIv [b0, b1, b2, b3, b4, b5, b6, b7]) s = .next
      { s with ivL := b0 ++ b1 ++ b2 ++ b3, ivR := b4 ++ b5 ++ b6 ++ b7, ivValid := true,
               outbox := s.outbox ++ [⟨.ok, false, []⟩] }

/-- ENCODE (R221, R223): on a keyed block, with an IV if MODE is CBC, and unless PADDING is None and the input is no whole number of
blocks, the answer is the padded input under the driver MODE names, and nothing else changes. -/
def Obligations.EncodePadsThenEncrypts : Prop :=
  ∀ (s : State) (data : List Byte), s.keyed = true → (s.mode = .cbc → s.ivValid = true) →
    (s.padding = .none → data.length % 8 = 0) →
      exec (.encode data) s = .next { s with outbox := s.outbox ++ [⟨.ok, false,
        match s.mode with
        | .ecb => ecbEncrypt s.keys (padBytes s.padding data)
        | .cbc => cbcEncrypt s.keys ⟨s.ivL, s.ivR⟩ (padBytes s.padding data)⟩] }

/-- DECODE (R222, R223, R87, R88): on a keyed block, with an IV if MODE is CBC, a whole number of blocks and known types, the answer is
the input under the inverse driver with its padding removed, TEXT says whether text was asked for, and nothing else changes. -/
def Obligations.DecodeDecryptsThenUnpads : Prop :=
  ∀ (s : State) (itype rtype : TypeCode) (data : List Byte), s.keyed = true → (s.mode = .cbc → s.ivValid = true) →
    data.length % 8 = 0 → (itype = .bytes ∨ itype = .text) → (rtype = .bytes ∨ rtype = .text) →
      exec (.decode itype rtype data) s = .next { s with outbox := s.outbox ++ [⟨.ok, decide (rtype = .text),
        unpadBytes s.padding
          (match s.mode with
          | .ecb => ecbDecrypt s.keys data
          | .cbc => cbcDecrypt s.keys ⟨s.ivL, s.ivR⟩ data)⟩] }

/-- The façade round trip (R224), under one INIT and IV: ENCODE fails on a keyed block only for None with an unaligned input or for CBC with no IV; and
when it succeeds, DECODE of its output gives the input back exactly when removing the padding of the padded input does. -/
def Obligations.FacadeRoundTripsExactlyWhenPaddingDoes : Prop :=
  ∀ (s t : State) (data : List Byte) (r : Response), s.keyed = true →
    exec (.encode data) s = .next t → t.outbox = s.outbox ++ [r] →
      (r.status ≠ .ok ↔
        (s.padding = .none ∧ data.length % 8 ≠ 0) ∨ (s.mode = .cbc ∧ s.ivValid = false)) ∧
      (r.status = .ok → ∃ u out, exec (.decode .bytes .bytes r.out) t = .next u ∧
        u.outbox = t.outbox ++ [⟨.ok, false, out⟩] ∧
        (out = data ↔ unpadBytes s.padding (padBytes s.padding data) = data))

/-- The misuse outcomes the source names (R225): ENCODE after INIT in CBC mode and before any SET_IV; DECODE with 7 bytes; SET_IV with other
than 8 bytes. -/
def Obligations.NamedMisuseOutcomes : Prop :=
  (∀ (s t : State) (scheme : PadScheme) (key data : List Byte), key ≠ [] → exec (.init .cbc scheme key) s = .next t →
    exec (.encode data) t = .next { t with outbox := t.outbox ++ [⟨.ivNotSet, false, []⟩] }) ∧
  (∀ (s : State) (itype rtype : TypeCode) (data : List Byte), s.keyed = true → (itype = .bytes ∨ itype = .text) →
    data.length = 7 → exec (.decode itype rtype data) s = .next { s with outbox := s.outbox ++ [⟨.misalignedInput, false, []⟩] }) ∧
  (∀ (s : State) (iv : List Byte), s.keyed = true → iv.length ≠ 8 →
    exec (.setIv iv) s = .next { s with outbox := s.outbox ++ [⟨.invalidIvLength, false, []⟩] })

/-- The initialisation sequence (70_reset_and_hazards.md R351, R352): on a block just reset INIT with any key succeeds, SET_IV after it
succeeds, and ENCODE after that succeeds in either mode under every scheme on a whole number of blocks. -/
def Obligations.InitialisationSequenceWorks : Prop :=
  ∀ (p : Params) (mode : Mode) (scheme : PadScheme) (key iv data : List Byte),
    key ≠ [] → iv.length = 8 → data.length % 8 = 0 →
      ∃ t u v r, exec (.init mode scheme key) (State.resetWith p) = .next t ∧ exec (.setIv iv) t = .next u ∧
        exec (.encode data) u = .next v ∧ v.outbox = [⟨.ok, false, []⟩, ⟨.ok, false, []⟩, r] ∧ r.status = .ok ∧
        v.keyed = true ∧ v.ivValid = true ∧ v.mode = mode ∧ v.padding = scheme ∧ v.keys = derive key
end

