-- ==== Sys2Proof/Laws/State.lean ====
section
/-!
SUPPORT. The fields of State after each update, one lemma per field and update.
-/
namespace Sys2Proof.Machine

/-! ### emit -/

@[simp] theorem emit_params (r : Response) (s : State) : (emit r s).params = s.params := rfl
@[simp] theorem emit_keyed (r : Response) (s : State) : (emit r s).keyed = s.keyed := rfl
@[simp] theorem emit_ivValid (r : Response) (s : State) : (emit r s).ivValid = s.ivValid := rfl
@[simp] theorem emit_mode (r : Response) (s : State) : (emit r s).mode = s.mode := rfl
@[simp] theorem emit_padding (r : Response) (s : State) : (emit r s).padding = s.padding := rfl
@[simp] theorem emit_ivL (r : Response) (s : State) : (emit r s).ivL = s.ivL := rfl
@[simp] theorem emit_ivR (r : Response) (s : State) : (emit r s).ivR = s.ivR := rfl
@[simp] theorem emit_keys (r : Response) (s : State) : (emit r s).keys = s.keys := rfl
@[simp] theorem emit_inbox (r : Response) (s : State) : (emit r s).inbox = s.inbox := rfl
@[simp] theorem emit_outbox (r : Response) (s : State) : (emit r s).outbox = s.outbox ++ [r] := rfl

/-! ### latchConfig -/

@[simp] theorem latchConfig_params (k : Schedule) (m : Mode) (σ : PadScheme) (s : State) : (latchConfig k m σ s).params = s.params := rfl
@[simp] theorem latchConfig_keyed (k : Schedule) (m : Mode) (σ : PadScheme) (s : State) : (latchConfig k m σ s).keyed = true := rfl
@[simp] theorem latchConfig_ivValid (k : Schedule) (m : Mode) (σ : PadScheme) (s : State) : (latchConfig k m σ s).ivValid = false := rfl
@[simp] theorem latchConfig_mode (k : Schedule) (m : Mode) (σ : PadScheme) (s : State) : (latchConfig k m σ s).mode = m := rfl
@[simp] theorem latchConfig_padding (k : Schedule) (m : Mode) (σ : PadScheme) (s : State) : (latchConfig k m σ s).padding = σ := rfl
@[simp] theorem latchConfig_ivL (k : Schedule) (m : Mode) (σ : PadScheme) (s : State) : (latchConfig k m σ s).ivL = s.ivL := rfl
@[simp] theorem latchConfig_ivR (k : Schedule) (m : Mode) (σ : PadScheme) (s : State) : (latchConfig k m σ s).ivR = s.ivR := rfl
@[simp] theorem latchConfig_keys (k : Schedule) (m : Mode) (σ : PadScheme) (s : State) : (latchConfig k m σ s).keys = k := rfl
@[simp] theorem latchConfig_inbox (k : Schedule) (m : Mode) (σ : PadScheme) (s : State) : (latchConfig k m σ s).inbox = s.inbox := rfl
@[simp] theorem latchConfig_outbox (k : Schedule) (m : Mode) (σ : PadScheme) (s : State) : (latchConfig k m σ s).outbox = s.outbox := rfl

/-! ### writeIv -/

@[simp] theorem writeIv_params (iv : Block) (s : State) : (writeIv iv s).params = s.params := rfl
@[simp] theorem writeIv_keyed (iv : Block) (s : State) : (writeIv iv s).keyed = s.keyed := rfl
@[simp] theorem writeIv_ivValid (iv : Block) (s : State) : (writeIv iv s).ivValid = true := rfl
@[simp] theorem writeIv_mode (iv : Block) (s : State) : (writeIv iv s).mode = s.mode := rfl
@[simp] theorem writeIv_padding (iv : Block) (s : State) : (writeIv iv s).padding = s.padding := rfl
@[simp] theorem writeIv_ivL (iv : Block) (s : State) : (writeIv iv s).ivL = iv.l := rfl
@[simp] theorem writeIv_ivR (iv : Block) (s : State) : (writeIv iv s).ivR = iv.r := rfl
@[simp] theorem writeIv_keys (iv : Block) (s : State) : (writeIv iv s).keys = s.keys := rfl
@[simp] theorem writeIv_inbox (iv : Block) (s : State) : (writeIv iv s).inbox = s.inbox := rfl
@[simp] theorem writeIv_outbox (iv : Block) (s : State) : (writeIv iv s).outbox = s.outbox := rfl

/-! ### consume -/

@[simp] theorem consume_params (es : List HostEvent) (s : State) : (consume es s).params = s.params := rfl
@[simp] theorem consume_keyed (es : List HostEvent) (s : State) : (consume es s).keyed = s.keyed := rfl
@[simp] theorem consume_ivValid (es : List HostEvent) (s : State) : (consume es s).ivValid = s.ivValid := rfl
@[simp] theorem consume_mode (es : List HostEvent) (s : State) : (consume es s).mode = s.mode := rfl
@[simp] theorem consume_padding (es : List HostEvent) (s : State) : (consume es s).padding = s.padding := rfl
@[simp] theorem consume_ivL (es : List HostEvent) (s : State) : (consume es s).ivL = s.ivL := rfl
@[simp] theorem consume_ivR (es : List HostEvent) (s : State) : (consume es s).ivR = s.ivR := rfl
@[simp] theorem consume_keys (es : List HostEvent) (s : State) : (consume es s).keys = s.keys := rfl
@[simp] theorem consume_inbox (es : List HostEvent) (s : State) : (consume es s).inbox = es := rfl
@[simp] theorem consume_outbox (es : List HostEvent) (s : State) : (consume es s).outbox = s.outbox := rfl

/-! ### hostReset -/

@[simp] theorem hostReset_params (es : List HostEvent) (s : State) : (hostReset es s).params = s.params := rfl
@[simp] theorem hostReset_keyed (es : List HostEvent) (s : State) : (hostReset es s).keyed = false := rfl
@[simp] theorem hostReset_ivValid (es : List HostEvent) (s : State) : (hostReset es s).ivValid = false := rfl
@[simp] theorem hostReset_mode (es : List HostEvent) (s : State) : (hostReset es s).mode = .ecb := rfl
@[simp] theorem hostReset_padding (es : List HostEvent) (s : State) : (hostReset es s).padding = .pkcs5 := rfl
@[simp] theorem hostReset_ivL (es : List HostEvent) (s : State) : (hostReset es s).ivL = 0 := rfl
@[simp] theorem hostReset_ivR (es : List HostEvent) (s : State) : (hostReset es s).ivR = 0 := rfl
@[simp] theorem hostReset_keys (es : List HostEvent) (s : State) : (hostReset es s).keys = (State.resetWith s.params).keys := rfl
@[simp] theorem hostReset_inbox (es : List HostEvent) (s : State) : (hostReset es s).inbox = es := rfl
@[simp] theorem hostReset_outbox (es : List HostEvent) (s : State) : (hostReset es s).outbox = s.outbox := rfl

/-! ### withFetchWord -/

@[simp] theorem withFetchWord_params (s : State) (n w : Nat) : (s.withFetchWord n w).params = s.params := rfl
@[simp] theorem withFetchWord_keyed (s : State) (n w : Nat) : (s.withFetchWord n w).keyed = s.keyed := rfl
@[simp] theorem withFetchWord_ivValid (s : State) (n w : Nat) : (s.withFetchWord n w).ivValid = s.ivValid := rfl
@[simp] theorem withFetchWord_mode (s : State) (n w : Nat) : (s.withFetchWord n w).mode = s.mode := rfl
@[simp] theorem withFetchWord_padding (s : State) (n w : Nat) : (s.withFetchWord n w).padding = s.padding := rfl
@[simp] theorem withFetchWord_ivL (s : State) (n w : Nat) : (s.withFetchWord n w).ivL = s.ivL := rfl
@[simp] theorem withFetchWord_ivR (s : State) (n w : Nat) : (s.withFetchWord n w).ivR = s.ivR := rfl
@[simp] theorem withFetchWord_keys (s : State) (n w : Nat) : (s.withFetchWord n w).keys = s.keys := rfl
@[simp] theorem withFetchWord_inbox (s : State) (n w : Nat) : (s.withFetchWord n w).inbox = sendBytes (tableFrameBytes n w) := rfl
@[simp] theorem withFetchWord_outbox (s : State) (n w : Nat) : (s.withFetchWord n w).outbox = s.outbox := rfl

/-! ### resetWith -/

@[simp] theorem resetWith_params (p : Params) : (State.resetWith p).params = p := rfl
@[simp] theorem resetWith_keyed (p : Params) : (State.resetWith p).keyed = false := rfl
@[simp] theorem resetWith_ivValid (p : Params) : (State.resetWith p).ivValid = false := rfl
@[simp] theorem resetWith_inbox (p : Params) : (State.resetWith p).inbox = [] := rfl
@[simp] theorem resetWith_outbox (p : Params) : (State.resetWith p).outbox = [] := rfl

end Sys2Proof.Machine
end

