-- ==== Sys2Proof/Laws/BlockTransform.lean ====
section
/-!
SUPPORT. One round of the Feistel network against the closing step: what makes D undo E, and E undo D, whatever F is
(42_block_transform.md R152).
-/
namespace Sys2Proof.Machine

@[simp] theorem feistelRound_l (k : Schedule) (b : Block) (i : Fin 18) :
    (feistelRound k b i).l = b.r ^^^ roundFunction k (b.l ^^^ subkey k i) := rfl

@[simp] theorem feistelRound_r (k : Schedule) (b : Block) (i : Fin 18) :
    (feistelRound k b i).r = b.l ^^^ subkey k i := rfl

@[simp] theorem whiten_l (k : Schedule) (i j : Fin 18) (b : Block) : (whiten k i j b).l = b.r ^^^ subkey k j := rfl

@[simp] theorem whiten_r (k : Schedule) (i j : Fin 18) (b : Block) : (whiten k i j b).r = b.l ^^^ subkey k i := rfl

theorem Block.ext_halves {a b : Block} (hl : a.l = b.l) (hr : a.r = b.r) : a = b := by
  cases a; cases b; simp_all

/-- Exclusive-or with the same word twice. -/
theorem xor_xor_cancel (a b : Word) : a ^^^ b ^^^ b = a := by
  rw [BitVec.xor_assoc, BitVec.xor_self, BitVec.xor_zero]

/-- A round of the inverse, on the closed output of a round, gives the closed output one round earlier. -/
theorem feistelRound_whiten (k : Schedule) (b : Block) (a r l : Fin 18) :
    feistelRound k (whiten k r l (feistelRound k b a)) l = whiten k a r b := by
  apply Block.ext_halves
  · simp only [feistelRound_l, feistelRound_r, whiten_l, whiten_r, xor_xor_cancel]
    rw [BitVec.xor_assoc, BitVec.xor_comm (subkey k r), ← BitVec.xor_assoc, xor_xor_cancel]
  · simp only [feistelRound_r, whiten_l, whiten_r, xor_xor_cancel]

/-- The closing step with its subkeys exchanged undoes itself. -/
theorem whiten_whiten (k : Schedule) (b : Block) (r l : Fin 18) : whiten k l r (whiten k r l b) = b := by
  apply Block.ext_halves <;> simp only [whiten_l, whiten_r, xor_xor_cancel]

end Sys2Proof.Machine
end

