-- ==== Sys2Proof/Laws/Bytes.lean ====
section
/-!
SUPPORT. Byte order: `be32` and `bytes32` undo each other, the blocks of a byte sequence and the bytes of a block sequence undo each
other, and the k-th block is the one at byte offset 8k (44_chaining.md R200).
-/
namespace Sys2Proof

@[simp] theorem bytes32_length (w : Word) : (bytes32 w).length = 4 := rfl

@[simp] theorem be32_cons4 (a b c d : Byte) (s : List Byte) : be32 (a :: b :: c :: d :: s) 0 = a ++ b ++ c ++ d := rfl

/-- Reading a word four bytes further on. -/
theorem be32_cons4_add (a b c d : Byte) (s : List Byte) (k : Nat) : be32 (a :: b :: c :: d :: s) (k + 4) = be32 s k := rfl

/-- be32 of bytes32 is the word, whatever follows. -/
@[simp] theorem be32_bytes32 (w : Word) (s : List Byte) : be32 (bytes32 w ++ s) 0 = w := by
  simp only [bytes32, List.cons_append, List.nil_append, be32_cons4]
  ext i hi
  simp only [BitVec.getElem_append, BitVec.getElem_extractLsb']
  split
  · simp; rw [BitVec.getLsbD_eq_getElem hi]
  · split
    · rw [BitVec.getLsbD_eq_getElem (by omega)]; congr 1; omega
    · split
      · rw [BitVec.getLsbD_eq_getElem (by omega)]; congr 1; omega
      · rw [BitVec.getLsbD_eq_getElem (by omega)]; congr 1; omega

/-- Reading past the four bytes of a word. -/
@[simp] theorem be32_bytes32_append (w : Word) (s : List Byte) (k : Nat) : be32 (bytes32 w ++ s) (k + 4) = be32 s k := rfl

/-- bytes32 of a big-endian word is its four bytes. -/
@[simp] theorem bytes32_append4 (a b c d : Byte) : bytes32 (a ++ b ++ c ++ d) = [a, b, c, d] := by
  simp only [bytes32, List.cons.injEq, and_true]
  refine ⟨?_, ?_, ?_, ?_⟩ <;>
  · ext i hi
    simp only [BitVec.getElem_extractLsb', BitVec.getLsbD_append]
    repeat' split
    all_goals first
      | omega
      | (rw [BitVec.getLsbD_eq_getElem (by omega)]; congr 1; omega)

end Sys2Proof

namespace Sys2Proof.Machine

@[simp] theorem blockBytes_length (b : Block) : (blockBytes b).length = 8 := rfl

@[simp] theorem splitBlocks_cons8 (b0 b1 b2 b3 b4 b5 b6 b7 : Byte) (s : List Byte) :
    splitBlocks (b0 :: b1 :: b2 :: b3 :: b4 :: b5 :: b6 :: b7 :: s) =
      ⟨b0 ++ b1 ++ b2 ++ b3, b4 ++ b5 ++ b6 ++ b7⟩ :: splitBlocks s := rfl

@[simp] theorem blockBytes_append8 (b0 b1 b2 b3 b4 b5 b6 b7 : Byte) :
    blockBytes ⟨b0 ++ b1 ++ b2 ++ b3, b4 ++ b5 ++ b6 ++ b7⟩ = [b0, b1, b2, b3, b4, b5, b6, b7] := by
  simp [blockBytes]

@[simp] theorem joinBlocks_nil : joinBlocks [] = [] := rfl

@[simp] theorem joinBlocks_cons (b : Block) (bs : List Block) : joinBlocks (b :: bs) = blockBytes b ++ joinBlocks bs := rfl

@[simp] theorem joinBlocks_length (bs : List Block) : (joinBlocks bs).length = 8 * bs.length := by
  induction bs with
  | nil => rfl
  | cons b bs ih => simp [ih]; omega

@[simp] theorem splitBlocks_blockBytes (b : Block) (s : List Byte) :
    splitBlocks (blockBytes b ++ s) = b :: splitBlocks s := by
  have h : splitBlocks (blockBytes b ++ s) =
      ⟨be32 (bytes32 b.l ++ []) 0, be32 (bytes32 b.r ++ []) 0⟩ :: splitBlocks s := rfl
  rw [h, be32_bytes32, be32_bytes32]

/-- Splitting the bytes of a block sequence gives the blocks back. -/
@[simp] theorem splitBlocks_joinBlocks (bs : List Block) : splitBlocks (joinBlocks bs) = bs := by
  induction bs with
  | nil => rfl
  | cons b bs ih => simp [ih]

/-- A byte sequence of whole blocks is empty or begins with eight bytes and a shorter such sequence. -/
theorem aligned_cases {s : List Byte} (h : s.length % 8 = 0) :
    s = [] ∨ ∃ b0 b1 b2 b3 b4 b5 b6 b7 t,
      s = b0 :: b1 :: b2 :: b3 :: b4 :: b5 :: b6 :: b7 :: t ∧ t.length % 8 = 0 := by
  match s, h with
  | [], _ => exact .inl rfl
  | b0 :: b1 :: b2 :: b3 :: b4 :: b5 :: b6 :: b7 :: t, h =>
    exact .inr ⟨b0, b1, b2, b3, b4, b5, b6, b7, t, rfl, by simp at h; omega⟩
  | [_], h | [_, _], h | [_, _, _], h | [_, _, _, _], h | [_, _, _, _, _], h | [_, _, _, _, _, _], h
  | [_, _, _, _, _, _, _], h => simp at h

/-- Induction over byte sequences of whole blocks. -/
theorem aligned_induction {motive : List Byte → Prop} (nil : motive [])
    (block : ∀ b0 b1 b2 b3 b4 b5 b6 b7 t, t.length % 8 = 0 → motive t →
      motive (b0 :: b1 :: b2 :: b3 :: b4 :: b5 :: b6 :: b7 :: t))
    (s : List Byte) (h : s.length % 8 = 0) : motive s := by
  generalize hn : s.length = n
  induction n using Nat.strongRecOn generalizing s with
  | _ n ih =>
    rcases aligned_cases h with rfl | ⟨b0, b1, b2, b3, b4, b5, b6, b7, t, rfl, ht⟩
    · exact nil
    · exact block _ _ _ _ _ _ _ _ _ ht (ih t.length (by simp at hn; omega) t ht rfl)

/-- Joining the blocks of a sequence of whole blocks gives the sequence back. -/
theorem joinBlocks_splitBlocks {s : List Byte} (h : s.length % 8 = 0) : joinBlocks (splitBlocks s) = s := by
  refine aligned_induction (motive := fun s => joinBlocks (splitBlocks s) = s) rfl ?_ s h
  intro b0 b1 b2 b3 b4 b5 b6 b7 t _ ih
  simp [ih]

theorem splitBlocks_length {s : List Byte} (h : s.length % 8 = 0) : 8 * (splitBlocks s).length = s.length := by
  have := congrArg List.length (joinBlocks_splitBlocks h)
  simpa using this

/-- The k-th block is the one at byte offset 8k (R200). -/
theorem splitBlocks_getElem? {s : List Byte} (h : s.length % 8 = 0) {k : Nat} (hk : 8 * k < s.length) :
    (splitBlocks s)[k]? = some ⟨be32 s (8 * k), be32 s (8 * k + 4)⟩ := by
  refine aligned_induction
    (motive := fun s => ∀ k, 8 * k < s.length → (splitBlocks s)[k]? = some ⟨be32 s (8 * k), be32 s (8 * k + 4)⟩)
    ?_ ?_ s h k hk
  · intro k hk
    simp at hk
  · intro b0 b1 b2 b3 b4 b5 b6 b7 t _ ih k hk
    cases k with
    | zero => rfl
    | succ k =>
      have h8 : 8 * (k + 1) = (8 * k + 4) + 4 := by omega
      have h12 : 8 * (k + 1) + 4 = ((8 * k + 4) + 4) + 4 := by omega
      simp only [splitBlocks_cons8, List.getElem?_cons_succ]
      rw [ih k (by simp at hk; omega), h12, h8]
      simp only [be32_cons4_add]

end Sys2Proof.Machine
end

