-- ==== Sys2Proof/Laws/Chaining.lean ====
section
/-!
SUPPORT. The chaining loops as block sequences: their lengths and their k-th blocks (44_chaining.md R202 to R205), and the drivers as
byte sequences of whole blocks.
-/
namespace Sys2Proof.Machine

@[simp] theorem xorBlock_l (a b : Block) : (xorBlock a b).l = a.l ^^^ b.l := rfl

@[simp] theorem xorBlock_r (a b : Block) : (xorBlock a b).r = a.r ^^^ b.r := rfl

@[simp] theorem xorBlock_zero (a : Block) : xorBlock a ⟨0, 0⟩ = a := by
  apply Block.ext_halves <;> simp

/-- Exclusive-or with the same block twice. -/
@[simp] theorem xorBlock_cancel (a b : Block) : xorBlock (xorBlock a b) b = a := by
  apply Block.ext_halves <;> simp only [xorBlock_l, xorBlock_r, xor_xor_cancel]

theorem xorBlock_assoc (a b c : Block) : xorBlock (xorBlock a b) c = xorBlock a (xorBlock b c) := by
  apply Block.ext_halves <;> simp only [xorBlock_l, xorBlock_r, BitVec.xor_assoc]

@[simp] theorem cbcEncBlocks_length (k : Schedule) (prev : Block) (bs : List Block) :
    (cbcEncBlocks k prev bs).length = bs.length := by
  induction bs generalizing prev with
  | nil => rfl
  | cons b bs ih => simp [cbcEncBlocks, ih]

@[simp] theorem cbcDecBlocks_length (k : Schedule) (prev : Block) (bs : List Block) :
    (cbcDecBlocks k prev bs).length = bs.length := by
  induction bs generalizing prev with
  | nil => rfl
  | cons b bs ih => simp [cbcDecBlocks, ih]

/-- The next ciphertext block from the one before it (R204). -/
theorem cbcEncBlocks_succ (k : Schedule) (prev : Block) (bs : List Block) (n : Nat) (b c : Block)
    (hb : bs[n + 1]? = some b) (hc : (cbcEncBlocks k prev bs)[n]? = some c) :
    (cbcEncBlocks k prev bs)[n + 1]? = some (encryptBlock k (xorBlock b c)) := by
  induction bs generalizing prev n with
  | nil => simp at hb
  | cons b0 bs ih =>
    cases n with
    | zero =>
      cases bs with
      | nil => simp at hb
      | cons b1 bs => simp_all [cbcEncBlocks]
    | succ n => exact ih _ n (by simpa using hb) (by simpa [cbcEncBlocks] using hc)

/-- The next plaintext block from two blocks of the input (R205). -/
theorem cbcDecBlocks_succ (k : Schedule) (prev : Block) (cs : List Block) (n : Nat) (c c' : Block)
    (hc : cs[n]? = some c) (hc' : cs[n + 1]? = some c') :
    (cbcDecBlocks k prev cs)[n + 1]? = some (xorBlock (decryptBlock k c') c) := by
  induction cs generalizing prev n with
  | nil => simp at hc
  | cons c0 cs ih =>
    cases n with
    | zero =>
      cases cs with
      | nil => simp at hc'
      | cons c1 cs => simp_all [cbcDecBlocks]
    | succ n => exact ih _ n (by simpa using hc) (by simpa using hc')

/-- The first plaintext block (R205). -/
theorem cbcDecBlocks_zero (k : Schedule) (prev : Block) (cs : List Block) (c : Block) (hc : cs[0]? = some c) :
    (cbcDecBlocks k prev cs)[0]? = some (xorBlock (decryptBlock k c) prev) := by
  cases cs <;> simp_all [cbcDecBlocks]

/-- The first ciphertext block (R204). -/
theorem cbcEncBlocks_zero (k : Schedule) (prev : Block) (bs : List Block) (b : Block) (hb : bs[0]? = some b) :
    (cbcEncBlocks k prev bs)[0]? = some (encryptBlock k (xorBlock b prev)) := by
  cases bs <;> simp_all [cbcEncBlocks]

/-! ### Lengths of the drivers' outputs (R200) -/

theorem ecbEncrypt_length (k : Schedule) {s : List Byte} (h : s.length % 8 = 0) : (ecbEncrypt k s).length = s.length := by
  simp [ecbEncrypt, splitBlocks_length h]

theorem ecbDecrypt_length (k : Schedule) {s : List Byte} (h : s.length % 8 = 0) : (ecbDecrypt k s).length = s.length := by
  simp [ecbDecrypt, splitBlocks_length h]

theorem cbcEncrypt_length (k : Schedule) (iv : Block) {s : List Byte} (h : s.length % 8 = 0) :
    (cbcEncrypt k iv s).length = s.length := by
  simp [cbcEncrypt, splitBlocks_length h]

theorem cbcDecrypt_length (k : Schedule) (iv : Block) {s : List Byte} (h : s.length % 8 = 0) :
    (cbcDecrypt k iv s).length = s.length := by
  simp [cbcDecrypt, splitBlocks_length h]

theorem encryptWithMode_length (s : State) {data : List Byte} (h : data.length % 8 = 0) :
    (encryptWithMode s data).length = data.length := by
  unfold encryptWithMode
  split
  · exact ecbEncrypt_length _ h
  · exact cbcEncrypt_length _ _ h

theorem decryptWithMode_length (s : State) {data : List Byte} (h : data.length % 8 = 0) :
    (decryptWithMode s data).length = data.length := by
  unfold decryptWithMode
  split
  · exact ecbDecrypt_length _ h
  · exact cbcDecrypt_length _ _ h

/-- The k-th block of joined blocks. -/
theorem joinBlocks_blockAt {bs : List Block} {n : Nat} {b : Block} (h : bs[n]? = some b) :
    (⟨be32 (joinBlocks bs) (8 * n), be32 (joinBlocks bs) (8 * n + 4)⟩ : Block) = b := by
  have hn : n < bs.length := by
    rw [List.getElem?_eq_some_iff] at h
    exact h.1
  have h8 : (joinBlocks bs).length % 8 = 0 := by simp
  have := splitBlocks_getElem? h8 (k := n) (by simp; omega)
  rw [splitBlocks_joinBlocks, h] at this
  simpa using this.symm

end Sys2Proof.Machine
end

