-- ==== Sys2Proof/Laws/Decode.lean ====
section
/-!
SUPPORT. The codes and fields of the header undo each other, and what receiving bytes from the host's queue gives.
-/
namespace Sys2Proof

/-! ### Codes (30_encoding.md R84 to R88) -/

@[simp] theorem modeOfCode_modeCode (m : Mode) : modeOfCode (modeCode m) = m := by cases m <;> decide

@[simp] theorem padOfCode_padCode (σ : PadScheme) : padOfCode (padCode σ) = some σ := by cases σ <;> decide

@[simp] theorem typeOfCode_typeCode (c : TypeCode) : typeOfCode (typeCode c) = c := by cases c <;> decide

@[simp] theorem modeCode_modeOfCode (c : BitVec 1) : modeCode (modeOfCode c) = c := by
  revert c; decide

@[simp] theorem typeCode_typeOfCode (c : BitVec 2) : typeCode (typeOfCode c) = c := by
  revert c; decide

theorem padCode_of_padOfCode {c : BitVec 3} {σ : PadScheme} (h : padOfCode c = some σ) : padCode σ = c := by
  revert c σ; decide

/-- A PAD code is a scheme's exactly when it is at most 4 (R86). -/
theorem padOfCode_isSome (c : BitVec 3) : (padOfCode c).isSome = decide (c ≤ 4) := by
  revert c; decide

@[simp] theorem opcodeOf_opcodeValue (o : Opcode) : opcodeOf (opcodeValue o) = some o := by cases o <;> decide

theorem opcodeValue_of_opcodeOf {c : Byte} {o : Opcode} (h : opcodeOf c = some o) : opcodeValue o = c := by
  simpa using List.find?_some h

/-! ### The primitive group (R84) -/

@[simp] theorem opcodePrimitive_init : opcodePrimitive .init = false := by decide
@[simp] theorem opcodePrimitive_setIv : opcodePrimitive .setIv = false := by decide
@[simp] theorem opcodePrimitive_encode : opcodePrimitive .encode = false := by decide
@[simp] theorem opcodePrimitive_decode : opcodePrimitive .decode = false := by decide
@[simp] theorem opcodePrimitive_fEval : opcodePrimitive .fEval = true := by decide
@[simp] theorem opcodePrimitive_encBlock : opcodePrimitive .encBlock = true := by decide
@[simp] theorem opcodePrimitive_decBlock : opcodePrimitive .decBlock = true := by decide
@[simp] theorem opcodePrimitive_pad : opcodePrimitive .pad = true := by decide
@[simp] theorem opcodePrimitive_unpad : opcodePrimitive .unpad = true := by decide
@[simp] theorem opcodePrimitive_ecbEnc : opcodePrimitive .ecbEnc = true := by decide
@[simp] theorem opcodePrimitive_ecbDec : opcodePrimitive .ecbDec = true := by decide
@[simp] theorem opcodePrimitive_cbcEnc : opcodePrimitive .cbcEnc = true := by decide
@[simp] theorem opcodePrimitive_cbcDec : opcodePrimitive .cbcDec = true := by decide

@[simp] theorem padOfCode_zero : padOfCode 0 = some .pkcs5 := rfl

/-! ### Header fields (R81) -/

@[simp] theorem headerOpc_headerWord (rt it : BitVec 2) (σ : BitVec 3) (m : BitVec 1) (o : Byte) :
    headerOpc (headerWord rt it σ m o) = o := by
  apply BitVec.eq_of_getLsbD_eq
  intro i hi
  simp only [headerOpc, headerWord, BitVec.getLsbD_extractLsb', BitVec.getLsbD_append, hi, decide_true, Bool.true_and]
  repeat' split
  all_goals first
    | omega
    | (congr 1; omega)

@[simp] theorem headerMode_headerWord (rt it : BitVec 2) (σ : BitVec 3) (m : BitVec 1) (o : Byte) :
    headerMode (headerWord rt it σ m o) = m := by
  apply BitVec.eq_of_getLsbD_eq
  intro i hi
  simp only [headerMode, headerWord, BitVec.getLsbD_extractLsb', BitVec.getLsbD_append, hi, decide_true, Bool.true_and]
  repeat' split
  all_goals first
    | omega
    | (congr 1; omega)

@[simp] theorem headerPad_headerWord (rt it : BitVec 2) (σ : BitVec 3) (m : BitVec 1) (o : Byte) :
    headerPad (headerWord rt it σ m o) = σ := by
  apply BitVec.eq_of_getLsbD_eq
  intro i hi
  simp only [headerPad, headerWord, BitVec.getLsbD_extractLsb', BitVec.getLsbD_append, hi, decide_true, Bool.true_and]
  repeat' split
  all_goals first
    | omega
    | (congr 1; omega)

@[simp] theorem headerItype_headerWord (rt it : BitVec 2) (σ : BitVec 3) (m : BitVec 1) (o : Byte) :
    headerItype (headerWord rt it σ m o) = it := by
  apply BitVec.eq_of_getLsbD_eq
  intro i hi
  simp only [headerItype, headerWord, BitVec.getLsbD_extractLsb', BitVec.getLsbD_append, hi, decide_true, Bool.true_and]
  repeat' split
  all_goals first
    | omega
    | (congr 1; omega)

@[simp] theorem headerRtype_headerWord (rt it : BitVec 2) (σ : BitVec 3) (m : BitVec 1) (o : Byte) :
    headerRtype (headerWord rt it σ m o) = rt := by
  apply BitVec.eq_of_getLsbD_eq
  intro i hi
  simp only [headerRtype, headerWord, BitVec.getLsbD_extractLsb', BitVec.getLsbD_append, hi, decide_true, Bool.true_and]
  repeat' split
  all_goals first
    | omega
    | (congr 1; omega)

@[simp] theorem headerRsvd_headerWord (rt it : BitVec 2) (σ : BitVec 3) (m : BitVec 1) (o : Byte) :
    headerRsvd (headerWord rt it σ m o) = (0 : BitVec 16) := by
  apply BitVec.eq_of_getLsbD_eq
  intro i hi
  simp only [headerRsvd, headerWord, BitVec.getLsbD_extractLsb', BitVec.getLsbD_append, hi, decide_true, Bool.true_and]
  repeat' split
  all_goals first
    | omega
    | (congr 1; omega)

/-- A header word is the word of its own fields (R81). -/
theorem headerWord_fields (h : Word) (hr : headerRsvd h = 0) :
    headerWord (headerRtype h) (headerItype h) (headerPad h) (headerMode h) (headerOpc h) = h := by
  have hz : (0 : BitVec 16) = h.extractLsb' 16 16 := hr.symm
  apply BitVec.eq_of_getLsbD_eq
  intro i hi
  simp only [headerWord, hz, headerRtype, headerItype, headerPad, headerMode, headerOpc, BitVec.getLsbD_append,
    BitVec.getLsbD_extractLsb']
  repeat' split
  all_goals
    rw [decide_eq_true (by omega), Bool.true_and]
    congr 1
    omega

/-! ### Receiving bytes (R80) -/

/-- Bytes that have all arrived are taken, and what follows them is left. -/
theorem takeBytes_sendBytes (bs : List Byte) (later : List HostEvent) :
    takeBytes (sendBytes bs ++ later) bs.length = .bytes bs later := by
  induction bs with
  | nil => cases later <;> rfl
  | cons b bs ih =>
    have h : takeBytes (sendBytes (b :: bs) ++ later) (b :: bs).length =
      (match takeBytes (sendBytes bs ++ later) bs.length with
        | .bytes bs later => .bytes (b :: bs) later
        | .reset later => .reset later
        | .waiting => .waiting) := rfl
    rw [h, ih]

/-- Too few bytes, and nothing after them: the block waits (70_reset_and_hazards.md R361). -/
theorem takeBytes_waiting {bs : List Byte} {n : Nat} (h : bs.length < n) : takeBytes (sendBytes bs) n = .waiting := by
  induction bs generalizing n with
  | nil =>
    cases n with
    | zero => simp at h
    | succ n => rfl
  | cons b bs ih =>
    cases n with
    | zero => simp at h
    | succ n =>
      have hs : takeBytes (sendBytes (b :: bs)) (n + 1) =
        (match takeBytes (sendBytes bs) n with
          | .bytes bs later => .bytes (b :: bs) later
          | .reset later => .reset later
          | .waiting => .waiting) := rfl
      rw [hs, ih (by simpa using h)]

/-- Too few bytes and then a reset: the bytes are discarded (R350). -/
theorem takeBytes_reset {bs : List Byte} {n : Nat} (later : List HostEvent) (h : bs.length < n) :
    takeBytes (sendBytes bs ++ .reset :: later) n = .reset later := by
  induction bs generalizing n with
  | nil =>
    cases n with
    | zero => simp at h
    | succ n => rfl
  | cons b bs ih =>
    cases n with
    | zero => simp at h
    | succ n =>
      have hs : takeBytes (sendBytes (b :: bs) ++ .reset :: later) (n + 1) =
        (match takeBytes (sendBytes bs ++ .reset :: later) n with
          | .bytes bs later => .bytes (b :: bs) later
          | .reset later => .reset later
          | .waiting => .waiting) := rfl
      rw [hs, ih (by simpa using h)]

/-- The bytes taken are as many as were asked for. -/
theorem takeBytes_length {es later : List HostEvent} {n : Nat} {bs : List Byte} (h : takeBytes es n = .bytes bs later) :
    bs.length = n := by
  induction es generalizing n bs with
  | nil =>
    cases n with
    | zero => simp_all [takeBytes]
    | succ n => simp [takeBytes] at h
  | cons e es ih =>
    cases n with
    | zero => simp_all [takeBytes]
    | succ n =>
      cases e with
      | byte b =>
        simp only [takeBytes] at h
        split at h
        · rename_i hrec
          simp only [Taken.bytes.injEq] at h
          rw [← h.1, List.length_cons, ih (by rw [hrec, h.2])]
        · simp at h
        · simp at h
      | reset => simp [takeBytes] at h
      | resetInCommand => simp [takeBytes] at h

/-- The frame of a command transaction has as many payload bytes as its length word says. -/
theorem nextTransaction_length {es later : List HostEvent} {f : Frame} (h : nextTransaction es = .command f later) :
    f.payload.length = f.length := by
  simp only [nextTransaction] at h
  repeat' split at h
  all_goals simp_all
  obtain ⟨rfl, -⟩ := h
  exact takeBytes_length ‹_›

end Sys2Proof
end

