-- ==== Sys2Proof/Laws/Framing.lean ====
section
/-!
SUPPORT. What the block receives from the host's queue: a complete frame, an incomplete one, and a reset inside one
(30_encoding.md R80; 70_reset_and_hazards.md R350, R361).
-/
namespace Sys2Proof.Machine

theorem sendBytes_append (a b : List Byte) : sendBytes (a ++ b) = sendBytes a ++ sendBytes b := by simp [sendBytes]

/-- The prefix and the payload of the bytes of a frame. -/
theorem frameBytes_eq (h : Word) (payload : List Byte) :
    frameBytes h payload = (bytes32 h ++ bytes32 (BitVec.ofNat 32 payload.length)) ++ payload := rfl

theorem be32_prefix_header (h n : Word) : be32 (bytes32 h ++ bytes32 n) 0 = h := be32_bytes32 h _

theorem be32_prefix_length (h n : Word) : be32 (bytes32 h ++ bytes32 n) 4 = n := by
  have := be32_bytes32 n []
  rw [List.append_nil] at this
  exact (be32_bytes32_append h (bytes32 n) 0).trans this

/-- A complete frame is received whole, whatever follows it but a reset marked to fall into its command. -/
theorem nextTransaction_frame (h : Word) {payload : List Byte} {later : List HostEvent} (hn : payload.length < 2 ^ 32)
    (hl : noResetInCommand later) :
    nextTransaction (sendBytes (frameBytes h payload) ++ later) = .command ⟨h, payload.length, payload⟩ later := by
  have h8 : (bytes32 h ++ bytes32 (BitVec.ofNat 32 payload.length)).length = 8 := rfl
  have hN : (BitVec.ofNat 32 payload.length).toNat = payload.length := by
    rw [BitVec.toNat_ofNat, Nat.mod_eq_of_lt hn]
  have htake := takeBytes_sendBytes (bytes32 h ++ bytes32 (BitVec.ofNat 32 payload.length)) (sendBytes payload ++ later)
  rw [h8] at htake
  rw [frameBytes_eq, sendBytes_append, List.append_assoc, nextTransaction, htake]
  simp only [be32_prefix_length, be32_prefix_header, hN, takeBytes_sendBytes]
  split
  · exact absurd rfl (hl _)
  · rfl

/-- Eight bytes and more split into the prefix and the rest. -/
theorem takeBytes_prefix {bs : List Byte} (later : List HostEvent) (h : 8 ≤ bs.length) :
    takeBytes (sendBytes bs ++ later) 8 = .bytes (bs.take 8) (sendBytes (bs.drop 8) ++ later) := by
  have hb : bs.take 8 ++ bs.drop 8 = bs := List.take_append_drop 8 bs
  have hlen : (bs.take 8).length = 8 := by simp [h]
  have := takeBytes_sendBytes (bs.take 8) (sendBytes (bs.drop 8) ++ later)
  rwa [hlen, ← List.append_assoc, ← sendBytes_append, hb] at this

/-- The length word of a frame is read from its first eight bytes. -/
theorem be32_take (bs : List Byte) : be32 (bs.take 8) 4 = be32 bs 4 := by
  simp [be32, List.getD_eq_getElem?_getD]

end Sys2Proof.Machine
end

