-- ==== Sys2Proof/Laws/KeySchedule.lean ====
section
/-!
SUPPORT. The expanded key, and what one step of the bootstrap pass writes (40_key_schedule.md R120, R123).
-/
namespace Sys2Proof.Machine

@[simp] theorem expandKey_length (key : List Byte) : (expandKey key).length = 72 := by simp [expandKey]

/-- K[j] = key[j mod n] (R120), with the reading function of the model. -/
theorem expandKey_getElem? (key : List Byte) {j : Nat} (h : j < 72) :
    (expandKey key)[j]? = some (key.getD (j % key.length) 0) := by
  simp [expandKey, h]

@[simp] theorem bootstrapPStep_run (st : BootState) (i : Fin 9) :
    (bootstrapPStep st i).run = encryptBlock st.keys st.run := rfl

@[simp] theorem bootstrapPStep_keys (st : BootState) (i : Fin 9) :
    (bootstrapPStep st i).keys = writePPair st.keys i (encryptBlock st.keys st.run) := rfl

@[simp] theorem bootstrapSStep_run (t : Fin 4) (st : BootState) (j : Fin 128) :
    (bootstrapSStep t st j).run = encryptBlock st.keys st.run := rfl

@[simp] theorem bootstrapSStep_keys (t : Fin 4) (st : BootState) (j : Fin 128) :
    (bootstrapSStep t st j).keys = writeSPair st.keys t j (encryptBlock st.keys st.run) := rfl

@[simp] theorem writePPair_s (k : Schedule) (i : Fin 9) (b : Block) : (writePPair k i b).s = k.s := rfl

@[simp] theorem writeSPair_p (k : Schedule) (t : Fin 4) (j : Fin 128) (b : Block) : (writeSPair k t j b).p = k.p := rfl

end Sys2Proof.Machine
end

