-- ==== Sys2Proof/Laws/Ops.lean ====
section
/-!
SUPPORT. What each shared operation of Machine/Ops.lean and Machine/Flags.lean can do, said once: the checks as equations where their
condition is known, and their inversions.
-/
namespace Sys2Proof.Machine

/-! ### Answers -/

theorem succeed_eq (out : List Byte) (s : State) :
    succeed out s = .next { s with outbox := s.outbox ++ [⟨.ok, false, out⟩] } := rfl

theorem raise_eq (status : Status) (s : State) :
    raise status s = .next { s with outbox := s.outbox ++ [⟨status, false, []⟩] } := rfl

theorem succeed_inv {out : List Byte} {s t : State} (h : succeed out s = .next t) : t = emit (okResponse out) s := by
  simpa [succeed] using h.symm

theorem raise_inv {status : Status} {s t : State} (h : raise status s = .next t) : t = emit (errorResponse status) s := by
  simpa [raise] using h.symm

/-! ### Checks whose condition is known -/

@[simp] theorem requireKeyed_of_keyed {s : State} {go : Result} (h : s.keyed = true) : requireKeyed s go = go := by
  simp [requireKeyed, h]

@[simp] theorem requireKeyed_of_unkeyed {s : State} {go : Result} (h : s.keyed = false) :
    requireKeyed s go = raise .notInitialized s := by
  simp [requireKeyed, h]

@[simp] theorem requireIv_of_valid {s : State} {go : Result} (h : s.ivValid = true) : requireIv s go = go := by
  simp [requireIv, h]

@[simp] theorem requireIv_of_invalid {s : State} {go : Result} (h : s.ivValid = false) :
    requireIv s go = raise .ivNotSet s := by
  simp [requireIv, h]

theorem requireIvIfCbc_of_ready {s : State} {go : Result} (h : s.mode = .cbc → s.ivValid = true) :
    requireIvIfCbc s go = go := by
  unfold requireIvIfCbc
  split
  · exact requireIv_of_valid (h ‹_›)
  · rfl

theorem requireIvIfCbc_of_missing {s : State} {go : Result} (hm : s.mode = .cbc) (hv : s.ivValid = false) :
    requireIvIfCbc s go = raise .ivNotSet s := by
  simp [requireIvIfCbc, hm, hv]

theorem requireAligned_of_aligned {bytes : List Byte} {s : State} {go : Result} (h : bytes.length % 8 = 0) :
    requireAligned bytes s go = go := by
  simp [requireAligned, aligned, h]

theorem requireAligned_of_misaligned {bytes : List Byte} {s : State} {go : Result} (h : bytes.length % 8 ≠ 0) :
    requireAligned bytes s go = raise .misalignedInput s := by
  simp [requireAligned, aligned, h]

theorem requireLength_of_eq {n : Nat} {status : Status} {payload : List Byte} {s : State} {go : Result}
    (h : payload.length = n) : requireLength n status payload s go = go := by
  simp [requireLength, h]

theorem requireLength_of_ne {n : Nat} {status : Status} {payload : List Byte} {s : State} {go : Result}
    (h : payload.length ≠ n) : requireLength n status payload s go = raise status s := by
  simp [requireLength, h]

/-! ### Inversions: a check either lets the command go on or reports its status -/

theorem requireKeyed_inv {s t : State} {go : Result} (h : requireKeyed s go = .next t) :
    (s.keyed = true ∧ go = .next t) ∨ (s.keyed = false ∧ t = emit (errorResponse .notInitialized) s) := by
  cases hk : s.keyed
  · rw [requireKeyed_of_unkeyed hk] at h
    exact .inr ⟨rfl, raise_inv h⟩
  · rw [requireKeyed_of_keyed hk] at h
    exact .inl ⟨rfl, h⟩

theorem requireIv_inv {s t : State} {go : Result} (h : requireIv s go = .next t) :
    (s.ivValid = true ∧ go = .next t) ∨ (s.ivValid = false ∧ t = emit (errorResponse .ivNotSet) s) := by
  cases hv : s.ivValid
  · rw [requireIv_of_invalid hv] at h
    exact .inr ⟨rfl, raise_inv h⟩
  · rw [requireIv_of_valid hv] at h
    exact .inl ⟨rfl, h⟩

theorem requireIvIfCbc_inv {s t : State} {go : Result} (h : requireIvIfCbc s go = .next t) :
    ((s.mode = .cbc → s.ivValid = true) ∧ go = .next t) ∨
      (s.mode = .cbc ∧ s.ivValid = false ∧ t = emit (errorResponse .ivNotSet) s) := by
  unfold requireIvIfCbc at h
  split at h
  · rename_i hm
    rcases requireIv_inv h with ⟨hv, hgo⟩ | ⟨hv, ht⟩
    · exact .inl ⟨fun _ => hv, hgo⟩
    · exact .inr ⟨hm, hv, ht⟩
  · rename_i hm
    exact .inl ⟨fun h' => absurd h' hm, h⟩

theorem requireAligned_inv {bytes : List Byte} {s t : State} {go : Result} (h : requireAligned bytes s go = .next t) :
    (bytes.length % 8 = 0 ∧ go = .next t) ∨
      (bytes.length % 8 ≠ 0 ∧ t = emit (errorResponse .misalignedInput) s) := by
  by_cases ha : bytes.length % 8 = 0
  · rw [requireAligned_of_aligned ha] at h
    exact .inl ⟨ha, h⟩
  · rw [requireAligned_of_misaligned ha] at h
    exact .inr ⟨ha, raise_inv h⟩

theorem requireLength_inv {n : Nat} {status : Status} {payload : List Byte} {s t : State} {go : Result}
    (h : requireLength n status payload s go = .next t) :
    (payload.length = n ∧ go = .next t) ∨ (payload.length ≠ n ∧ t = emit (errorResponse status) s) := by
  by_cases hl : payload.length = n
  · rw [requireLength_of_eq hl] at h
    exact .inl ⟨hl, h⟩
  · rw [requireLength_of_ne hl] at h
    exact .inr ⟨hl, raise_inv h⟩

end Sys2Proof.Machine
end

