-- ==== Sys2Proof/Laws/Padding.lean ====
section
/-!
SUPPORT. The pad count, and the two backward scans of the decoder in terms of the sequence itself (43_padding.md R170, R179, R180).
-/
namespace Sys2Proof.Machine

theorem padCount_pos (n : Nat) : 1 ≤ padCount n := by unfold padCount; omega

theorem padCount_le (n : Nat) : padCount n ≤ 8 := by unfold padCount; omega

theorem padCount_total (n : Nat) : (n + padCount n) % 8 = 0 := by unfold padCount; omega

theorem alignedNonEmpty_iff (s : List Byte) : alignedNonEmpty s = true ↔ 0 < s.length ∧ s.length % 8 = 0 := by
  simp only [alignedNonEmpty, padCount, Bool.and_eq_true, decide_eq_true_eq, beq_iff_eq]
  omega

/-- The marker scan finds exactly a 0x80 behind at most `budget − 1` zeros (R179), on the reversed sequence. -/
theorem markerScan_eq_some (budget : Nat) (s rest : List Byte) :
    markerScan budget s = some rest ↔ ∃ z, z < budget ∧ s = List.replicate z 0x00 ++ 0x80 :: rest := by
  induction budget generalizing s with
  | zero => simp [markerScan]
  | succ n ih =>
    cases s with
    | nil => simp [markerScan]
    | cons b s =>
      simp only [markerScan]
      split
      · rename_i hb
        constructor
        · intro h
          exact ⟨0, by omega, by simp_all⟩
        · rintro ⟨z, hz, h⟩
          cases z with
          | zero => simp_all
          | succ z => simp [List.replicate_succ, hb] at h
      · rename_i hb
        split
        · rename_i h0
          rw [ih]
          constructor
          · rintro ⟨z, hz, h⟩
            exact ⟨z + 1, by omega, by simp [List.replicate_succ, h0, h]⟩
          · rintro ⟨z, hz, h⟩
            cases z with
            | zero => simp_all
            | succ z => exact ⟨z, by omega, by simpa [List.replicate_succ, h0] using h⟩
        · rename_i h0
          constructor
          · intro h
            simp at h
          · rintro ⟨z, hz, h⟩
            cases z with
            | zero => simp_all
            | succ z =>
              rw [List.replicate_succ, List.cons_append, List.cons.injEq] at h
              exact absurd h.1 h0

/-- The spaces scan drops a run of 0x20 bytes, the whole run unless it is longer than `budget` (R180), on the reversed sequence. -/
theorem dropSpaces_spec (budget : Nat) (s : List Byte) :
    ∃ k, k ≤ budget ∧ s = List.replicate k 0x20 ++ dropSpaces budget s ∧
      (k = budget ∨ (dropSpaces budget s).head? ≠ some 0x20) := by
  induction budget generalizing s with
  | zero => exact ⟨0, by omega, by simp [dropSpaces], .inl rfl⟩
  | succ n ih =>
    cases s with
    | nil => exact ⟨0, by omega, by simp [dropSpaces], .inr (by simp [dropSpaces])⟩
    | cons b s =>
      by_cases hb : b = 0x20
      · obtain ⟨k, hk, hs, hend⟩ := ih s
        refine ⟨k + 1, by omega, ?_, ?_⟩
        · rw [dropSpaces, if_pos hb, List.replicate_succ, List.cons_append, ← hs, hb]
        · rw [dropSpaces, if_pos hb]
          exact hend.imp_left fun h => by omega
      · have hd : dropSpaces (n + 1) (b :: s) = b :: s := by rw [dropSpaces, if_neg hb]
        rw [hd]
        exact ⟨0, by omega, rfl, .inr fun h => hb (by simpa using h)⟩

end Sys2Proof.Machine
end

