-- ==== Sys2Proof/Laws/PerInstr.lean ====
section
/-!
SUPPORT. Statements about every command as syntax, one lemma per constructor. `HeaderMatchesRow`: the header the encoder writes meets the mask
and match of the command's own row of spec/opcode_table.json, and of no other row.
-/
namespace Sys2Proof.Laws.HeaderMatchesRow

/-- The rows of the table that a header meets. -/
def rowsMet (h : Word) : List Opcode := (opcodeTable.filter fun row => h &&& row.mask == row.pattern).map (·.opcode)

/-- The header of the command meets exactly one row, and its OPC is that row's. -/
def Statement (i : Instr) : Prop := (rowsMet (headerOf i)).map opcodeValue = [headerOpc (headerOf i)]

theorem init (mode : Mode) (σ : PadScheme) (key : List Byte) : Statement (.init mode σ key) := by
  simp only [Statement, headerOf]
  cases mode <;> cases σ <;> decide

theorem setIv (iv : List Byte) : Statement (.setIv iv) := by
  simp only [Statement, headerOf]
  decide

theorem encode (data : List Byte) : Statement (.encode data) := by
  simp only [Statement, headerOf]
  decide

theorem decode (itype rtype : TypeCode) (data : List Byte) : Statement (.decode itype rtype data) := by
  simp only [Statement, headerOf]
  cases itype <;> cases rtype <;> decide

theorem fEval (data : List Byte) : Statement (.fEval data) := by
  simp only [Statement, headerOf]
  decide

theorem encBlock (data : List Byte) : Statement (.encBlock data) := by
  simp only [Statement, headerOf]
  decide

theorem decBlock (data : List Byte) : Statement (.decBlock data) := by
  simp only [Statement, headerOf]
  decide

theorem pad (σ : PadScheme) (data : List Byte) : Statement (.pad σ data) := by
  simp only [Statement, headerOf]
  cases σ <;> decide

theorem unpad (σ : PadScheme) (data : List Byte) : Statement (.unpad σ data) := by
  simp only [Statement, headerOf]
  cases σ <;> decide

theorem ecbEnc (data : List Byte) : Statement (.ecbEnc data) := by
  simp only [Statement, headerOf]
  decide

theorem ecbDec (data : List Byte) : Statement (.ecbDec data) := by
  simp only [Statement, headerOf]
  decide

theorem cbcEnc (data : List Byte) : Statement (.cbcEnc data) := by
  simp only [Statement, headerOf]
  decide

theorem cbcDec (data : List Byte) : Statement (.cbcDec data) := by
  simp only [Statement, headerOf]
  decide

end Sys2Proof.Laws.HeaderMatchesRow
end

