-- ==== Sys2Proof/Tests/Slice0.lean ====
section
/-!
SUPPORT. Tests on fixed values, each expected result taken from spec/ (the file and section is named), and one witness for every
obligation that has hypotheses: a state and operands that meet them.
-/
namespace Sys2Proof.Tests
open Sys2Proof Sys2Proof.Machine

/-! ### Helpers -/

/-- The byte string of a word given by its 8 hex digits, then of another. -/
def bytes64 (l r : Word) : List Byte := bytes32 l ++ bytes32 r

/-- The outputs and statuses a command or a step has added to an empty outbox. -/
def sent (r : Result) : List Response :=
  match r with
  | .next t => t.outbox
  | .fault _ => []
  | .refused _ => []

/-- A block whose tables are the initial ones (20_memory.md R54), with key and IV set. The known answers of 95_test_vectors.md sections 3.1
and 4 under P_INIT and S_INIT are given for these tables. -/
def keyed (mode : Mode) (scheme : PadScheme) : State :=
  { State.reset with keyed := true, ivValid := true, mode := mode, padding := scheme, keys := initialTables }

/-- The same with no IV set. -/
def keyedNoIv (mode : Mode) (scheme : PadScheme) : State := { keyed mode scheme with ivValid := false }

/-- A block just reset that the host has sent a frame to. -/
def offered (p : Params) (h : Word) (payload : List Byte) : State :=
  { State.resetWith p with inbox := sendBytes (frameBytes h payload) }

/-- MAX_PAYLOAD_BYTES = 16 and EXPOSE_PRIMITIVES = 0 (95_test_vectors.md section 7.3). -/
def smallParams : Params := ⟨16, false⟩

/-! ### WellFormed refuses an ill-formed term, check by check -/

theorem test_wellFormed_accepts : (Instr.setIv [1]).wellFormed smallParams = true := by decide

theorem test_wellFormed_payload_over_32_bit_length :
    (Instr.encode (List.replicate (2 ^ 32) 0)).wellFormed ⟨2 ^ 32, true⟩ = false := by
  rw [Instr.wellFormed, Instr.payload, List.length_replicate]
  decide

theorem test_wellFormed_payload_too_large : (Instr.encode (List.replicate 17 0)).wellFormed smallParams = false := by decide

theorem test_wellFormed_primitive_hidden : (Instr.fEval [0, 0, 0, 0]).wellFormed smallParams = false := by decide

/-! ### Decoding: a word of every row, bit by bit from 30_encoding.md R81 (RSVD, RTYPE, ITYPE, PAD, MODE, OPC). The payload is empty by log
entry 7. -/

theorem test_decode_init : decodeTableWord 32 0b0000000000000000_00_00_100_1_00000001 = some (.init .cbc .spaces []) := by decide

theorem test_decode_setIv : decodeTableWord 32 0b0000000000000000_00_00_000_0_00000010 = some (.setIv []) := by decide

theorem test_decode_encode : decodeTableWord 32 0b0000000000000000_00_00_000_0_00000011 = some (.encode []) := by decide

theorem test_decode_decode :
    decodeTableWord 32 0b0000000000000000_01_10_000_0_00000100 = some (.decode .neither2 .text []) := by decide

theorem test_decode_fEval : decodeTableWord 32 0b0000000000000000_00_00_000_0_00010000 = some (.fEval []) := by decide

theorem test_decode_encBlock : decodeTableWord 32 0b0000000000000000_00_00_000_0_00010001 = some (.encBlock []) := by decide

theorem test_decode_decBlock : decodeTableWord 32 0b0000000000000000_00_00_000_0_00010010 = some (.decBlock []) := by decide

theorem test_decode_pad : decodeTableWord 32 0b0000000000000000_00_00_011_0_00010011 = some (.pad .none []) := by decide

theorem test_decode_unpad : decodeTableWord 32 0b0000000000000000_00_00_001_0_00010100 = some (.unpad .oneAndZeros []) := by decide

theorem test_decode_ecbEnc : decodeTableWord 32 0b0000000000000000_00_00_000_0_00010101 = some (.ecbEnc []) := by decide

theorem test_decode_ecbDec : decodeTableWord 32 0b0000000000000000_00_00_000_0_00010110 = some (.ecbDec []) := by decide

theorem test_decode_cbcEnc : decodeTableWord 32 0b0000000000000000_00_00_000_0_00010111 = some (.cbcEnc []) := by decide

theorem test_decode_cbcDec : decodeTableWord 32 0b0000000000000000_00_00_000_0_00011000 = some (.cbcDec []) := by decide

/-- A payload byte: UNPAD with lastByte of the one byte 0x41 (log entry 7's layout). -/
theorem test_decode_payload_byte : decodeTableWord 72 0x41_00000001_00000414 = some (.unpad .lastByte [0x41]) := by decide

/-- 95_test_vectors.md section 7.3: INIT with PAD = 5, ENCODE with MODE = 1, and the unassigned opcodes 0 and 5 are refused. -/
theorem test_decode_refusals :
    decodeTableWord 32 0x00000B01 = none ∧ decodeTableWord 32 0x00000103 = none ∧
      decodeTableWord 32 0x00000000 = none ∧ decodeTableWord 32 0x00000005 = none := by decide

/-- 95_test_vectors.md section 8: the frame of UNPAD pad=spaces data=4120202020202020. -/
theorem test_encode_unpad :
    encode (.unpad .spaces [0x41, 0x20, 0x20, 0x20, 0x20, 0x20, 0x20, 0x20]) =
      [0x00, 0x00, 0x08, 0x14, 0x00, 0x00, 0x00, 0x08, 0x41, 0x20, 0x20, 0x20, 0x20, 0x20, 0x20, 0x20] := by decide

/-! ### The ROM (20_memory.md R56) -/

theorem test_rom_xor : rom.foldl (· ^^^ ·) 0 = 0x6FFA520A#32 := by decide +kernel

theorem test_rom_sum : rom.foldl (· + ·) 0 = 0x6BBF03AC#32 := by decide +kernel

theorem test_rom_spots :
    rom[0]? = some 0x243F6A88#32 ∧ rom[18]? = some 0xD1310BA6#32 ∧ (sInit.get 0).get 255 = 0x6E85076A#32 ∧
      (sInit.get 3).get 255 = 0x3AC372E6#32 := by decide +kernel

/-! ### Known answers (95_test_vectors.md) -/

/-- Section 3.1. -/
theorem test_round_function :
    roundFunction initialTables 0x00000000 = 0x2FCFF51E#32 ∧ roundFunction initialTables 0xFFFFFFFF = 0x452C2867#32 ∧
      roundFunction initialTables 0x243F6A88 = 0xDB2F9C4E#32 := by decide +kernel

/-- Section 2.2: key 616263; the words of P after step 3. -/
theorem test_mixKey_abc :
    (mixKey (expandKey [0x61, 0x62, 0x63]) initialTables).p.toList =
      [0x455D09E9, 0xE7C069B1, 0x7078E84D, 0x62121025, 0xC66A5940, 0x4AFE53B3, 0x694C99F9, 0x8E2D0DEB, 0x26494385,
        0x59B27016, 0xDC3707AD, 0x57886E0F, 0xA1CE4AD6, 0xAB1F31BF, 0x5CE5B7D6, 0xD4256A76, 0xF075B4BB, 0xEA189978] := by
  decide +kernel

/-- Section 2.1: the zero key's first bootstrap step writes 706D9FCC and 1792D23A to P[0] and P[1]. -/
theorem test_bootstrap_first_step :
    (bootstrapPStep ⟨mixKey (expandKey [0]) initialTables, ⟨0, 0⟩⟩ 0).keys.p.toList.take 3 =
      [0x706D9FCC, 0x1792D23A, 0x13198A2E] := by decide +kernel

/-- Section 4, E of the zero block under the initial tables. -/
theorem test_execEncBlock :
    sent (exec (.encBlock (bytes64 0 0)) (keyed .ecb .none)) = [⟨.ok, false, bytes64 0x706D9FCC 0x1792D23A⟩] := by
  decide +kernel

/-- Section 4, D of the zero block under the initial tables. -/
theorem test_execDecBlock :
    sent (exec (.decBlock (bytes64 0 0)) (keyed .ecb .none)) = [⟨.ok, false, bytes64 0x3E6C275D 0x20C8AB5A⟩] := by
  decide +kernel

/-- Section 3.1 through the command. -/
theorem test_execFEval :
    sent (exec (.fEval [0x24, 0x3F, 0x6A, 0x88]) (keyed .ecb .none)) = [⟨.ok, false, [0xDB, 0x2F, 0x9C, 0x4E]⟩] := by
  decide +kernel

/-- Section 6, law (b): equal blocks; the block is that of section 4. -/
theorem test_execEcbEnc :
    sent (exec (.ecbEnc (bytes64 0 0 ++ bytes64 0 0)) (keyed .cbc .none)) =
      [⟨.ok, false, bytes64 0x706D9FCC 0x1792D23A ++ bytes64 0x706D9FCC 0x1792D23A⟩] := by decide +kernel

theorem test_execEcbDec :
    sent (exec (.ecbDec (bytes64 0x706D9FCC 0x1792D23A)) (keyed .cbc .none)) = [⟨.ok, false, bytes64 0 0⟩] := by decide +kernel

/-- Section 6: chaining. The second block is the first ciphertext block, so that the two cancel and the second output equals the
first (44_chaining.md R204). -/
theorem test_execCbcEnc :
    sent (exec (.cbcEnc (bytes64 0 0 ++ bytes64 0x706D9FCC 0x1792D23A)) (keyed .ecb .none)) =
      [⟨.ok, false, bytes64 0x706D9FCC 0x1792D23A ++ bytes64 0x706D9FCC 0x1792D23A⟩] := by decide +kernel

/-- The inverse of the test above (44_chaining.md R205). -/
theorem test_execCbcDec :
    sent (exec (.cbcDec (bytes64 0x706D9FCC 0x1792D23A ++ bytes64 0x706D9FCC 0x1792D23A)) (keyed .ecb .none)) =
      [⟨.ok, false, bytes64 0 0 ++ bytes64 0x706D9FCC 0x1792D23A⟩] := by decide +kernel

/-- Section 4's block through the façade, with an IV equal to the data (45_facade.md R221, 44_chaining.md R204). -/
theorem test_execEncode :
    sent (exec (.encode (bytes64 0x01234567 0x89ABCDEF))
        { keyed .cbc .none with ivL := 0x01234567, ivR := 0x89ABCDEF }) =
      [⟨.ok, false, bytes64 0x706D9FCC 0x1792D23A⟩] := by decide +kernel

/-- Section 4's block back through the façade, with the TEXT bit that ret=text asks for (section 9, program 2, step 7). -/
theorem test_execDecode :
    sent (exec (.decode .bytes .text (bytes64 0x706D9FCC 0x1792D23A)) (keyedNoIv .ecb .none)) =
      [⟨.ok, true, bytes64 0 0⟩] := by decide +kernel

/-! ### Padding (95_test_vectors.md section 5) -/

/-- Section 5.1, n = 1. -/
theorem test_execPad :
    [PadScheme.pkcs5, .oneAndZeros, .lastByte, .none, .spaces].map (fun σ => sent (exec (.pad σ [0x41]) State.reset)) =
      [[⟨.ok, false, [0x41, 0x07, 0x07, 0x07, 0x07, 0x07, 0x07, 0x07]⟩],
        [⟨.ok, false, [0x41, 0x80, 0x00, 0x00, 0x00, 0x00, 0x00, 0x00]⟩],
        [⟨.ok, false, [0x41, 0x00, 0x00, 0x00, 0x00, 0x00, 0x00, 0x07]⟩],
        [⟨.ok, false, [0x41]⟩],
        [⟨.ok, false, [0x41, 0x20, 0x20, 0x20, 0x20, 0x20, 0x20, 0x20]⟩]] := by decide +kernel

/-- Section 5.1, n = 0 and n = 8. -/
theorem test_padBytes_aligned :
    [PadScheme.pkcs5, .oneAndZeros, .lastByte, .none, .spaces].map (fun σ => (padBytes σ [], (padBytes σ (bytes64 0 0)).length)) =
      [(List.replicate 8 0x08, 16), (0x80 :: List.replicate 7 0, 8), (List.replicate 7 0 ++ [0x08], 8), ([], 8),
        (List.replicate 8 0x20, 8)] := by decide

/-- Section 5.2, pkcs5 and lastByte. -/
theorem test_unpadBytes_counted :
    unpadBytes .pkcs5 [0x41, 0x42, 0x43, 0x44, 0x45, 0x46, 0x47, 0x09] =
        [0x41, 0x42, 0x43, 0x44, 0x45, 0x46, 0x47, 0x09] ∧
      unpadBytes .pkcs5 [0x41, 0x42, 0x43, 0x44, 0x45, 0x46, 0x47, 0x03] = [0x41, 0x42, 0x43, 0x44, 0x45] ∧
      unpadBytes .pkcs5 [0x03] = [0x03] ∧
      unpadBytes .lastByte [0x41, 0x42, 0x43, 0x44, 0x45, 0x46, 0x47, 0x08] = [] := by decide

/-- Section 5.2, oneAndZeros: the last line's marker is 15 bytes from the end. -/
theorem test_execUnpad :
    [[0x41, 0x42, 0x43, 0x44, 0x80, 0, 0, 0], [0x80, 0, 0, 0, 0, 0, 0, 0], [0, 0, 0, 0, 0, 0, 0, 0],
        [0x41, 0x42, 0x43, 0x44, 0x45, 0x80, 0, 0x01], 0x41 :: 0x80 :: List.replicate 14 0].map
        (fun d => sent (exec (.unpad .oneAndZeros d) State.reset)) =
      [[⟨.ok, false, [0x41, 0x42, 0x43, 0x44]⟩], [⟨.ok, false, []⟩], [⟨.ok, false, [0, 0, 0, 0, 0, 0, 0, 0]⟩],
        [⟨.ok, false, [0x41, 0x42, 0x43, 0x44, 0x45, 0x80, 0, 0x01]⟩],
        [⟨.ok, false, 0x41 :: 0x80 :: List.replicate 14 0⟩]] := by decide +kernel

/-- Section 5.2, spaces: at most 8 of 15 are removed. -/
theorem test_unpadBytes_spaces :
    unpadBytes .spaces (0x41 :: List.replicate 15 0x20) = 0x41 :: List.replicate 7 0x20 ∧
      unpadBytes .spaces [0x41, 0x42, 0x43, 0x44, 0x20, 0x20, 0x20, 0x20] = [0x41, 0x42, 0x43, 0x44] := by decide

/-! ### Configuration and statuses (95_test_vectors.md sections 7.3 and 9) -/

/-- SET_IV iv=FEDCBA9876543210 (program 2, steps 4 and 5): both halves; and with 7 bytes nothing. -/
theorem test_execSetIv :
    exec (.setIv (bytes64 0xFEDCBA98 0x76543210)) (keyedNoIv .cbc .pkcs5) = .next
        { keyed .cbc .pkcs5 with ivL := 0xFEDCBA98, ivR := 0x76543210, outbox := [⟨.ok, false, []⟩] } ∧
      exec (.setIv [0xFE, 0xDC, 0xBA, 0x98, 0x76, 0x54, 0x32]) (keyedNoIv .cbc .pkcs5) = .next
        { keyedNoIv .cbc .pkcs5 with outbox := [⟨.invalidIvLength, false, []⟩] } := ⟨rfl, rfl⟩

/-- A re-key (program 4, step 7): IV_VALID is cleared, the configuration latched. -/
theorem test_execInit :
    (match exec (.init .ecb .spaces [0x61, 0x62, 0x63]) (keyed .cbc .pkcs5) with
      | .next t => (t.keyed, t.ivValid, t.mode, t.padding, t.outbox)
      | _ => (false, true, .cbc, .pkcs5, [])) = (true, false, .ecb, .spaces, [⟨.ok, false, []⟩]) := rfl

/-- Section 7.3's rows on a block with MAX_PAYLOAD_BYTES = 16 and EXPOSE_PRIMITIVES = 0, one step each. -/
theorem test_step_frame_checks :
    [offered smallParams 0x00000003 (List.replicate 17 0), offered smallParams 0x000000FF (List.replicate 17 0),
        offered smallParams 0x00000010 [0, 0, 0, 0], offered smallParams 0x00000B01 [0],
        offered smallParams 0x00010003 [], offered smallParams 0x00001003 [], offered smallParams 0x00000003 [0x41]].map
        (fun s => (sent (step s)).map (·.status)) =
      [[.payloadTooLarge], [.illegalCommand], [.illegalCommand], [.reservedField], [.reservedField], [.reservedField],
        [.notInitialized]] := by decide +kernel

/-- Section 7.3's rows for a keyed block in CBC mode with no IV: DECODE of 1 byte, ENCODE of 1 byte under None, ITYPE = 3 with 1 byte,
and section 8's CBC_DEC of 4 bytes. -/
theorem test_exec_check_order :
    [Instr.decode .bytes .bytes [0x41], .encode [0x41], .decode .neither3 .bytes [0x41], .cbcDec [0x01, 0xD5, 0xB4, 0xC1],
        .cbcEnc [0x41]].map (fun i => (sent (exec i (keyedNoIv .cbc .none))).map (·.status)) =
      [[.misalignedInput], [.ivNotSet], [.invalidInputType], [.misalignedInput], [.ivNotSet]] := by decide +kernel

/-- RTYPE = 3 is reported after a decryption that succeeds (program 3, step 13). -/
theorem test_execDecode_return_type :
    sent (exec (.decode .bytes .neither3 (bytes64 0 0)) (keyed .cbc .pkcs5)) = [⟨.unsupportedReturnType, false, []⟩] := by
  decide +kernel

/-- The first instruction after reset, given as a table word: SET_IV reports NOT_INITIALIZED (section 7.3, decision D19). -/
theorem test_withFetchWord :
    step (State.reset.withFetchWord 32 0x00000002) = .next { State.reset with outbox := [⟨.notInitialized, false, []⟩] } := rfl

/-- A reset in the middle of a frame discards it (70_reset_and_hazards.md R350); the block is as after reset, waiting. -/
theorem test_step_reset_in_frame :
    step { keyed .cbc .spaces with inbox := [.byte 0, .byte 0, .reset] } = .next State.reset := rfl

/-- Section 8: the response to DECODE with ret=text starts 00000100. -/
theorem test_responseBytes :
    responseBytes ⟨.ok, true, [0x37]⟩ = [0x00, 0x00, 0x01, 0x00, 0x00, 0x00, 0x00, 0x01, 0x37] ∧
      responseBytes ⟨.notInitialized, false, []⟩ = [0x00, 0x00, 0x00, 0x82, 0x00, 0x00, 0x00, 0x00] := by decide

/-! ### Assembler lines (95_test_vectors.md section 8; 30_encoding.md R95, R96) -/

theorem test_assembleLine_init :
    assembleLine "INIT mode=ecb pad=none key=616263" =
      some [0x00, 0x00, 0x06, 0x01, 0x00, 0x00, 0x00, 0x03, 0x61, 0x62, 0x63] := by decide +kernel

theorem test_assembleLine_raw :
    assembleLine ".raw H=00000B01 data=00" = some [0x00, 0x00, 0x0B, 0x01, 0x00, 0x00, 0x00, 0x01, 0x00] := by decide +kernel

theorem test_assembleLine_pseudo :
    assembleLine "DECODE_TEXT data=01D5" = assembleLine "DECODE in=bytes ret=text data=01D5" ∧
      assembleLine "REKEY mode=cbc key=00" = assembleLine "INIT mode=cbc pad=pkcs5 key=00" ∧
      assembleLine "ENCODE data=\"\"" = some [0x00, 0x00, 0x00, 0x03, 0x00, 0x00, 0x00, 0x00] := by decide +kernel

/-! ### Witnesses: every obligation with hypotheses is about something -/

theorem noResetInCommand_nil : noResetInCommand [] := fun _ h => by cases h

theorem noResetInCommand_reset (later : List HostEvent) : noResetInCommand (.reset :: later) := fun _ h => by cases h

theorem witness_DecodeOfEncodeGivesTheCommandBack :
    (Instr.decode .neither3 .text [7]).wellFormed ⟨8, false⟩ = true ∧ noResetInCommand [.reset, .byte 1] :=
  ⟨by decide, noResetInCommand_reset _⟩

theorem witness_EncodeOfDecodeGivesTheFrameBack :
    (List.replicate 8 (0x20 : Byte)).length < 2 ^ 32 ∧
      decodeFrame ⟨8, true⟩ ⟨0x00000814, 8, List.replicate 8 0x20⟩ = .ok (.unpad .spaces (List.replicate 8 0x20)) := by decide

theorem witness_StepRunsTheDecodedCommand : ∃ (s : State) (i : Instr) (later : List HostEvent),
    i.wellFormed s.params = true ∧ noResetInCommand later ∧ s.inbox = sendBytes (encode i) ++ later :=
  ⟨{ keyed .cbc .pkcs5 with inbox := sendBytes (encode (.encode [1, 2])) ++ [.reset] }, .encode [1, 2], [.reset], by decide,
    noResetInCommand_reset _, rfl⟩

theorem witness_RejectedFrameReportsItsStatusOnly :
    ∃ (s s' s'' : State) (e e' e'' : Reject),
      (e ≠ e' ∧ e' ≠ e'' ∧ e ≠ e'') ∧
      (s.inbox = sendBytes (frameBytes 0x19 []) ++ [] ∧ decodeFrame s.params ⟨0x19, 0, []⟩ = .error e) ∧
      (s'.inbox = sendBytes (frameBytes 3 (List.replicate 17 0)) ++ [] ∧
        decodeFrame s'.params ⟨3, 17, List.replicate 17 0⟩ = .error e') ∧
      (s''.inbox = sendBytes (frameBytes 0x00000A13 []) ++ [] ∧ decodeFrame s''.params ⟨0x00000A13, 0, []⟩ = .error e'') :=
  ⟨offered ⟨16, true⟩ 0x19 [], offered ⟨16, true⟩ 3 (List.replicate 17 0), offered ⟨16, true⟩ 0x00000A13 [], .illegalCommand,
    .payloadTooLarge, .reservedField, by decide, ⟨(List.append_nil _).symm, rfl⟩, ⟨(List.append_nil _).symm, rfl⟩,
    ⟨(List.append_nil _).symm, rfl⟩⟩

/-- 7 bytes; and a header that announces one payload byte, with none sent. -/
theorem witness_IncompleteFrameWaits :
    ({ State.reset with inbox := sendBytes (List.replicate 7 0) } : State).inbox = sendBytes (List.replicate 7 0) ∧
      (List.replicate 7 (0 : Byte)).length < 8 ∧
      ([0, 0, 0, 3, 0, 0, 0, 1] : List Byte).length < 8 + (be32 [0, 0, 0, 3, 0, 0, 0, 1] 4).toNat := ⟨rfl, by decide, by decide⟩

/-- A reset with nothing received, with 7 bytes, before the last payload byte, and inside the command of a complete frame. -/
theorem witness_ResetAbandonsWhateverIsInProgress :
    ({ State.reset with inbox := [.reset] } : State).inbox = sendBytes [] ++ .reset :: [] ∧
      (List.replicate 7 (0 : Byte)).length < 8 ∧
      ([0, 0, 0, 3, 0, 0, 0, 1] : List Byte).length < 8 + (be32 [0, 0, 0, 3, 0, 0, 0, 1] 4).toNat ∧
      ({ State.reset with inbox := sendBytes (encode (.encode [1])) ++ [.resetInCommand] } : State).inbox =
        sendBytes (encode (.encode [1])) ++ .resetInCommand :: [] ∧
      8 ≤ (encode (.encode [1])).length ∧ (encode (.encode [1])).length = 8 + (be32 (encode (.encode [1])) 4).toNat :=
  ⟨rfl, by decide, by decide, rfl, by decide, by decide⟩

theorem witness_FramesRunInArrivalOrder : ∃ (s : State) (is : List Instr),
    is.length = 2 ∧ (∀ i ∈ is, i.wellFormed s.params = true) ∧ s.inbox = sendBytes (is.flatMap encode) :=
  ⟨{ State.reset with inbox := sendBytes ([Instr.init .cbc .none [1], .setIv []].flatMap encode) },
    [.init .cbc .none [1], .setIv []], rfl, by decide, rfl⟩

/-- One frame for each of the frame checks and one that passes them. -/
theorem witness_StatusIsThatOfTheFirstFailingCheck :
    (∀ h ∈ [0x00, 0x03, 0x00010003, 0x17, 0x13], ∃ s : State,
        s.inbox = sendBytes (frameBytes h (List.replicate 17 0)) ++ []) ∧
      (List.replicate 17 (0 : Byte)).length < 2 ^ 32 ∧ noResetInCommand [] :=
  ⟨fun h _ => ⟨offered ⟨16, true⟩ h (List.replicate 17 0), (List.append_nil _).symm⟩, by decide, noResetInCommand_nil⟩

/-- The ends of both ranges of opcodes. -/
theorem witness_ExposePrimitivesGatesOnlyThePrimitives :
    (0x10 ≤ headerOpc 0x10 ∧ headerOpc 0x10 ≤ 0x18) ∧ (0x10 ≤ headerOpc 0x18 ∧ headerOpc 0x18 ≤ 0x18) ∧
      (0x01 ≤ headerOpc 0x01 ∧ headerOpc 0x01 ≤ 0x04) ∧ (0x01 ≤ headerOpc 0x04 ∧ headerOpc 0x04 ≤ 0x04) := by decide

/-- A keyed block that meets the invariant: its tables are those of a key. -/
def keyedByOneByte : State :=
  { State.reset with keyed := true, ivValid := true, mode := .cbc, padding := .lastByte, keys := derive [0x41],
                     outbox := [⟨.ok, false, []⟩, ⟨.ok, false, []⟩] }

theorem keyedByOneByte_inv : keyedByOneByte.Inv where
  params_wf := by decide
  iv_keyed := fun _ => rfl
  keys_derived := fun _ => ⟨[0x41], by decide, by decide, rfl⟩
  responses_legal := by
    intro r hr
    have : r = ⟨.ok, false, []⟩ := by simpa [keyedByOneByte] using hr
    subst this
    exact ⟨fun h => absurd rfl h, Nat.zero_le _⟩

theorem witness_InvariantIsKeptByEveryStep : ∃ s t : State, s.Inv ∧ step s = .next t ∧ t.outbox ≠ s.outbox :=
  ⟨{ keyedByOneByte with inbox := sendBytes (encode (.setIv [])) }, emit (errorResponse .invalidIvLength) keyedByOneByte,
    ⟨keyedByOneByte_inv.1, keyedByOneByte_inv.2, keyedByOneByte_inv.3, keyedByOneByte_inv.4⟩, rfl,
    fun h => absurd (congrArg List.length h) (by decide)⟩

theorem witness_InvariantHoldsAfterReset :
    Params.wf ⟨8, false⟩ = true ∧ Params.wf ⟨2 ^ 32 - 9, true⟩ = true := by decide

/-- INIT and SET_IV that report OK, another command that does, and each kind that does not. -/
theorem witness_CommandsWriteOnlyWhatTheyOwn :
    ∃ (s t₁ t₂ t₃ t₄ : State),
      exec (.init .cbc .none [1]) s = .next t₁ ∧ t₁.outbox = s.outbox ++ [⟨.ok, false, []⟩] ∧
      exec (.setIv (bytes64 1 2)) s = .next t₂ ∧ t₂.outbox = s.outbox ++ [⟨.ok, false, []⟩] ∧
      exec (.pad .none []) s = .next t₃ ∧ t₃.outbox = s.outbox ++ [⟨.ok, false, []⟩] ∧
      exec (.init .cbc .none []) s = .next t₄ ∧ t₄.outbox = s.outbox ++ [⟨.invalidKeyLength, false, []⟩] :=
  ⟨keyedByOneByte, _, _, _, _, rfl, rfl, rfl, rfl, rfl, rfl, rfl, rfl⟩

/-- A command that fails; and two frames that do, one rejected by the decoder and one by its command. -/
theorem witness_FailedCommandChangesNothing :
    (∃ (i : Instr) (s t : State) (r : Response), exec i s = .next t ∧ t.outbox = s.outbox ++ [r] ∧ r.status ≠ .ok) ∧
      ∀ h ∈ [0x05, 0x01], ∃ (s t : State) (r : Response),
        s.inbox = sendBytes (frameBytes h []) ++ [] ∧ step s = .next t ∧ t.outbox = s.outbox ++ [r] ∧ r.status ≠ .ok := by
  refine ⟨⟨.setIv [], keyed .ecb .none, _, ⟨.invalidIvLength, false, []⟩, rfl, rfl, by decide⟩, ?_⟩
  intro h hh
  obtain rfl | rfl : h = 0x05 ∨ h = 0x01 := by simpa using hh
  · exact ⟨offered smallParams 0x05 [], _, ⟨.illegalCommand, false, []⟩, rfl, rfl, rfl, by decide⟩
  · exact ⟨offered smallParams 0x01 [], _, ⟨.invalidKeyLength, false, []⟩, rfl, rfl, rfl, by decide⟩

theorem witness_KeyGatesAllButInitPadUnpad : State.reset.keyed = false := rfl

/-- Two states that differ in every register that holds no value, and the answers to a step of each. -/
theorem witness_UnwrittenRegistersAreUnreadable : ∃ s s' t t' : State,
    s.mode ≠ s'.mode ∧ s.ivL ≠ s'.ivL ∧ s.SameReadable s' ∧ step s = .next t ∧ step s' = .next t' :=
  ⟨State.reset.withFetchWord 32 3, { State.reset.withFetchWord 32 3 with mode := .cbc, padding := .none, ivL := 1, ivR := 2,
                                                                         keys := initialTables },
    _, _, by decide, by decide, ⟨rfl, rfl, rfl, rfl, rfl, fun h => (by cases h), fun h => (by cases h)⟩, rfl, rfl⟩

/-- A keyed state that differs from another only in its IV, with IV_VALID = 0. -/
theorem witness_UnwrittenRegistersAreUnreadable_keyed : ∃ s s' : State,
    s.keyed = true ∧ s.ivR ≠ s'.ivR ∧ s.SameReadable s' :=
  ⟨keyedNoIv .cbc .none, { keyedNoIv .cbc .none with ivR := 2 }, rfl, by decide,
    ⟨rfl, rfl, rfl, rfl, rfl, fun _ => ⟨rfl, rfl, rfl⟩, fun h => (by cases h)⟩⟩

theorem witness_CommandsAreIdempotent :
    (∃ t, exec (.encode [1]) State.reset = .next t) ∧
      (∃ t, exec (.unpad .pkcs5 [1]) (keyed .cbc .none) = .next t) ∧
      (∃ t t', ([1] : List Byte) ≠ [] ∧ exec (.init .ecb .spaces [1]) State.reset = .next t ∧
        exec (.init .ecb .spaces [1]) (keyed .cbc .none) = .next t') :=
  ⟨⟨_, rfl⟩, ⟨_, rfl⟩, _, _, by decide, rfl, rfl⟩

/-- A command that reports each status a command can report. -/
theorem witness_StatusCodesAndWhoReportsThem :
    [sent (exec (.pad .none []) State.reset), sent (exec (.setIv []) (keyed .ecb .none)),
        sent (exec (.cbcEnc []) (keyedNoIv .ecb .none)), sent (exec (.decode .neither2 .bytes []) (keyed .ecb .none)),
        sent (exec (.ecbDec [1]) (keyed .ecb .none)), sent (exec (.decode .bytes .neither2 []) (keyed .ecb .none)),
        sent (exec (.init .ecb .none []) State.reset), sent (exec (.fEval []) State.reset),
        sent (exec (.decBlock []) (keyed .ecb .none))].map (fun rs => rs.map (·.status)) =
      [[.ok], [.invalidIvLength], [.ivNotSet], [.invalidInputType], [.misalignedInput], [.unsupportedReturnType],
        [.invalidKeyLength], [.notInitialized], [.payloadLength]] := by decide +kernel

theorem witness_StatusWordLayoutAndTextBit : ∃ (s t : State) (r : Response),
    exec (.decode .text .text []) s = .next t ∧ t.outbox = s.outbox ++ [r] ∧ r.text = true :=
  ⟨keyed .cbc .none, _, ⟨.ok, true, []⟩, rfl, rfl, rfl⟩

theorem witness_ResponseFrameLayout :
    (⟨.ok, true, [1, 2]⟩ : Response).out.length < 2 ^ 32 ∧ ∃ (s t : State) (r : Response),
      exec (.fEval []) s = .next t ∧ t.outbox = s.outbox ++ [r] ∧ r.status ≠ .ok :=
  ⟨by decide, keyed .cbc .none, _, ⟨.payloadLength, false, []⟩, rfl, rfl, by decide⟩

/-- Keys of 1, 71, 72 and 73 bytes. -/
theorem witness_KeyExpansionRepeatsAndCutsTheKey :
    ([1] : List Byte) ≠ [] ∧ (List.replicate 71 (1 : Byte)) ≠ [] ∧ 72 ≤ (List.replicate 72 (1 : Byte)).length ∧
      72 ≤ (List.replicate 73 (1 : Byte)).length := by decide

/-- Section 2.4 of 95_test_vectors.md: "A" and "AA"; a key of 72 bytes; a key of 71. -/
theorem witness_KeysOfEqualExpansionAreEquivalent :
    expandKey [0x41] = expandKey [0x41, 0x41] ∧ ([0x41] : List Byte) ≠ [] ∧ 0 < 2 ∧
      72 ≤ (List.replicate 72 (0x41 : Byte)).length ∧ (List.replicate 71 (0x41 : Byte)).length < 72 := by decide +kernel

theorem witness_InitDerivesAndLatches : ([0] : List Byte) ≠ [] := by decide

theorem witness_FEvalComputesTheRoundFunction : (keyed .ecb .none).keyed = true := rfl

theorem witness_BlockCommandsAnswerTheTransforms :
    (keyed .ecb .none).keyed = true ∧ (bytes64 1 2).length = 8 := by decide

theorem witness_DecBlockUndoesEncBlock : ∃ (s t : State) (data : List Byte) (r : Response),
    s.keyed = true ∧ data.length = 8 ∧ exec (.encBlock data) s = .next t ∧ t.outbox = s.outbox ++ [r] :=
  ⟨keyed .ecb .none, _, bytes64 1 2, _, rfl, rfl, rfl, rfl⟩

/-- Lengths on either side of 4 and of 8. -/
theorem witness_WrongPayloadLengthsAreReported :
    (keyed .ecb .none).keyed = true ∧ ([1, 2, 3] : List Byte).length ≠ 4 ∧ ([1, 2, 3, 4, 5] : List Byte).length ≠ 4 ∧
      (List.replicate 7 (0 : Byte)).length ≠ 8 ∧ (List.replicate 9 (0 : Byte)).length ≠ 8 := by decide

/-- Lengths 0, 1, 7, 8 and 9 in the two cases. -/
theorem witness_PaddingEncoders :
    ((List.replicate 8 (0 : Byte)).length ≠ 0 ∧ (List.replicate 8 (0 : Byte)).length % 8 = 0) ∧
      ∀ n ∈ [0, 1, 7, 9], (List.replicate n (0 : Byte)).length = 0 ∨ (List.replicate n (0 : Byte)).length % 8 ≠ 0 := by decide

theorem witness_PaddingEncoderLaws : PadScheme.spaces ≠ .none ∧ PadScheme.none = .none := by decide

theorem witness_CountedDecoders :
    (PadScheme.pkcs5 = .pkcs5 ∨ PadScheme.pkcs5 = .lastByte) ∧ (PadScheme.lastByte = .pkcs5 ∨ PadScheme.lastByte = .lastByte) := by
  decide

/-- A marker 8 bytes from the end; and a sequence with none. -/
theorem witness_OneAndZerosDecoder :
    7 ≤ 7 ∧ ¬ ∃ (u : List Byte) (z : Nat), z ≤ 7 ∧ ([] : List Byte) = u ++ [0x80] ++ List.replicate z 0x00 :=
  ⟨Nat.le_refl 7, fun ⟨u, z, _, h⟩ => by simp at h⟩

/-- Two blocks, and the block numbers at both ends. -/
theorem witness_EcbCommandsTransformEachBlock :
    (keyed .ecb .none).keyed = true ∧ (bytes64 1 2 ++ bytes64 3 4).length % 8 = 0 ∧
      8 * 0 < (bytes64 1 2 ++ bytes64 3 4).length ∧ 8 * 1 < (bytes64 1 2 ++ bytes64 3 4).length := by decide

theorem witness_CbcEncChainsOnTheCiphertext :
    (keyed .ecb .none).keyed = true ∧ (keyed .ecb .none).ivValid = true ∧ (bytes64 1 2 ++ bytes64 3 4).length % 8 = 0 ∧
      0 < (bytes64 1 2 ++ bytes64 3 4).length ∧ 8 * (0 + 1) < (bytes64 1 2 ++ bytes64 3 4).length := by decide

theorem witness_CbcDecChainsOnTheInput :
    (keyed .cbc .none).keyed = true ∧ (keyed .cbc .none).ivValid = true ∧ (bytes64 1 2 ++ bytes64 3 4).length % 8 = 0 ∧
      0 < (bytes64 1 2 ++ bytes64 3 4).length ∧ 8 * (0 + 1) < (bytes64 1 2 ++ bytes64 3 4).length := by decide

/-- Lengths 7 and 8 with no IV, and 9 with one. -/
theorem witness_DriverCommandsReportMisuse :
    (keyed .ecb .none).keyed = true ∧ (keyedNoIv .ecb .none).keyed = true ∧ (keyed .ecb .none).ivValid = true ∧
      (keyedNoIv .ecb .none).ivValid = false ∧ (List.replicate 7 (0 : Byte)).length % 8 ≠ 0 ∧
      (List.replicate 9 (0 : Byte)).length % 8 ≠ 0 ∧ (bytes64 1 2).length % 8 = 0 := by decide

/-- Two equal blocks; and a sequence that differs from it in its block 1 alone. -/
theorem witness_DriverLaws :
    (bytes64 1 2 ++ bytes64 1 2).length % 8 = 0 ∧
      blockAt (bytes64 1 2 ++ bytes64 1 2) 0 = blockAt (bytes64 1 2 ++ bytes64 1 2) 1 ∧
      (bytes64 1 2 ++ bytes64 3 4).length = (bytes64 1 2 ++ bytes64 1 2).length ∧
      ∀ n, 8 * n < (bytes64 1 2 ++ bytes64 1 2).length → n ≠ 1 →
        blockAt (bytes64 1 2 ++ bytes64 3 4) n = blockAt (bytes64 1 2 ++ bytes64 1 2) n := by
  refine ⟨by decide, by decide, by decide, ?_⟩
  intro n hn hne
  have h16 : (bytes64 1 2 ++ bytes64 1 2).length = 16 := by decide
  obtain rfl : n = 0 := by omega
  decide

theorem witness_SetIvWritesBothHalves : (keyedNoIv .ecb .none).keyed = true := rfl

/-- ECB with no IV under PKCS5 and 1 byte; CBC with an IV under None and 8 bytes. -/
theorem witness_EncodePadsThenEncrypts :
    ((keyedNoIv .ecb .pkcs5).keyed = true ∧ ((keyedNoIv .ecb .pkcs5).mode = .cbc → (keyedNoIv .ecb .pkcs5).ivValid = true) ∧
        ((keyedNoIv .ecb .pkcs5).padding = .none → ([1] : List Byte).length % 8 = 0)) ∧
      ((keyed .cbc .none).keyed = true ∧ ((keyed .cbc .none).mode = .cbc → (keyed .cbc .none).ivValid = true) ∧
        ((keyed .cbc .none).padding = .none → (bytes64 1 2).length % 8 = 0)) := by decide

theorem witness_DecodeDecryptsThenUnpads :
    (keyed .cbc .spaces).keyed = true ∧ ((keyed .cbc .spaces).mode = .cbc → (keyed .cbc .spaces).ivValid = true) ∧
      (bytes64 1 2).length % 8 = 0 ∧ (TypeCode.text = .bytes ∨ TypeCode.text = .text) ∧
      (TypeCode.bytes = .bytes ∨ TypeCode.bytes = .text) := by decide

/-- An ENCODE that succeeds, one that None makes fail, and one that the missing IV makes fail. -/
theorem witness_FacadeRoundTripsExactlyWhenPaddingDoes :
    (∃ (s t : State) (r : Response), s.keyed = true ∧ exec (.encode [1]) s = .next t ∧ t.outbox = s.outbox ++ [r] ∧
        r.status = .ok) ∧
      (∃ (s t : State) (r : Response), s.keyed = true ∧ exec (.encode [1]) s = .next t ∧ t.outbox = s.outbox ++ [r] ∧
        r.status = .misalignedInput) ∧
      ∃ (s t : State) (r : Response), s.keyed = true ∧ exec (.encode [1]) s = .next t ∧ t.outbox = s.outbox ++ [r] ∧
        r.status = .ivNotSet :=
  ⟨⟨keyed .cbc .pkcs5, _, _, rfl, rfl, rfl, rfl⟩, ⟨keyed .ecb .none, _, _, rfl, rfl, rfl, rfl⟩,
    keyedNoIv .cbc .none, _, _, rfl, rfl, rfl, rfl⟩

theorem witness_NamedMisuseOutcomes :
    (∃ t, ([1] : List Byte) ≠ [] ∧ exec (.init .cbc .pkcs5 [1]) State.reset = .next t) ∧
      (keyed .cbc .pkcs5).keyed = true ∧ (TypeCode.text = .bytes ∨ TypeCode.text = .text) ∧
      (List.replicate 7 (0 : Byte)).length = 7 ∧ (List.replicate 7 (0 : Byte)).length ≠ 8 ∧
      (List.replicate 9 (0 : Byte)).length ≠ 8 :=
  ⟨⟨_, by decide, rfl⟩, by decide⟩

theorem witness_InitialisationSequenceWorks :
    ([1] : List Byte) ≠ [] ∧ (bytes64 1 2).length = 8 ∧ ([] : List Byte).length % 8 = 0 ∧
      (bytes64 1 2 ++ bytes64 3 4).length % 8 = 0 := by decide

end Sys2Proof.Tests
end

/-!
SUPPORT. Proofs of the statements about the scope (00_scope.md): EXPOSE_PRIMITIVES gates the primitives and nothing else (R12), and every step
keeps the invariant (R10, R11). What later proofs can use: `decodeFrame_ok_inv`, `decodeFrame_illegalCommand_iff` and `exec_answer`, which say once
what the decoder and a command can answer.
-/

/-! ### The decoder's verdict -/

namespace Sys2Proof

@[simp] theorem commandOf_payload (o : Opcode) (mode : Mode) (scheme : PadScheme) (itype rtype : TypeCode)
    (payload : List Byte) : (commandOf o mode scheme itype rtype payload).payload = payload := by
  cases o <;> rfl

/-- What an accepted frame has passed, and the command it stands for (30_encoding.md R94). -/
theorem decodeFrame_ok_inv {p : Params} {f : Frame} {i : Instr} (h : decodeFrame p f = .ok i) :
    ∃ o scheme, opcodeOf (headerOpc f.header) = some o ∧
      (opcodePrimitive o = true → p.exposePrimitives = true) ∧ f.length ≤ p.maxPayloadBytes ∧
      headerRsvd f.header = 0 ∧ unusedFieldsZero o f.header = true ∧
      padOfCode (headerPad f.header) = some scheme ∧
      i = commandOf o (modeOfCode (headerMode f.header)) scheme (typeOfCode (headerItype f.header))
        (typeOfCode (headerRtype f.header)) f.payload := by
  unfold decodeFrame at h
  split at h
  · cases h
  next o ho =>
    split_ifs at h with hprim hlen hrsvd hunused
    split at h
    · cases h
    next scheme hpad =>
      cases h
      exact ⟨o, scheme, ho, by simpa using hprim, by omega, by simpa using hrsvd, by simpa using hunused, hpad, rfl⟩

/-- The payload of an accepted command is the frame's, and its length word was not too large (R92). -/
theorem decodeFrame_ok_payload {p : Params} {f : Frame} {i : Instr} (h : decodeFrame p f = .ok i) :
    i.payload = f.payload ∧ f.length ≤ p.maxPayloadBytes := by
  obtain ⟨o, scheme, -, -, hlen, -, -, -, rfl⟩ := decodeFrame_ok_inv h
  exact ⟨commandOf_payload .., hlen⟩

/-- A frame is an illegal command exactly when its opcode is unassigned or a primitive that is not exposed (R90, R91). -/
theorem decodeFrame_illegalCommand_iff (p : Params) (f : Frame) :
    decodeFrame p f = .error .illegalCommand ↔
      ∀ o, opcodeOf (headerOpc f.header) = some o → opcodePrimitive o = true ∧ p.exposePrimitives = false := by
  unfold decodeFrame
  split
  next hnone => simp [hnone]
  next o ho =>
    split
    next hprim => simpa [ho] using hprim
    next hprim =>
      -- Whatever the later checks find, they answer something else.
      repeat' split
      all_goals simpa [ho] using hprim

/-- The decoder reads EXPOSE_PRIMITIVES for a primitive opcode only (00_scope.md R12). -/
theorem decodeFrame_exposePrimitives_irrel {o : Opcode} {f : Frame} (n : Nat) (e e' : Bool)
    (ho : opcodeOf (headerOpc f.header) = some o) (hp : opcodePrimitive o = false) :
    decodeFrame ⟨n, e⟩ f = decodeFrame ⟨n, e'⟩ f := by
  simp [decodeFrame, ho, hp]

/-- Every OPC value of the primitive range is that of a primitive opcode (30_encoding.md R84). -/
theorem opcodeOf_primitive_range {c : Byte} (h : 0x10 ≤ c ∧ c ≤ 0x18) :
    ∃ o, opcodeOf c = some o ∧ opcodePrimitive o = true := by
  have assigned : ∀ c : Byte, 0x10 ≤ c ∧ c ≤ 0x18 → (opcodeOf c).isSome = true := by decide
  obtain ⟨o, ho⟩ := Option.isSome_iff_exists.mp (assigned c h)
  exact ⟨o, ho, by simpa [opcodePrimitive, opcodeValue_of_opcodeOf ho] using h⟩

/-- Every OPC value of the façade range is that of an opcode outside the primitive group (R84). -/
theorem opcodeOf_facade_range {c : Byte} (h : 0x01 ≤ c ∧ c ≤ 0x04) :
    ∃ o, opcodeOf c = some o ∧ opcodePrimitive o = false := by
  have assigned : ∀ c : Byte, 0x01 ≤ c ∧ c ≤ 0x04 → (opcodeOf c).isSome = true := by decide
  obtain ⟨o, ho⟩ := Option.isSome_iff_exists.mp (assigned c h)
  have hc : ¬ (0x10 : Byte) ≤ c := by bv_omega
  exact ⟨o, ho, by rw [opcodePrimitive, opcodeValue_of_opcodeOf ho, decide_eq_false hc, Bool.false_and]⟩

end Sys2Proof

/-! ### Lengths of the padding operations -/

namespace Sys2Proof.Machine

/-- Padding adds at most 8 bytes (43_padding.md R170 to R175; 00_scope.md R11). -/
theorem padBytes_length_le (scheme : PadScheme) (data : List Byte) :
    (padBytes scheme data).length ≤ data.length + 8 := by
  have hle := padCount_le data.length
  have hpos := padCount_pos data.length
  cases scheme with
  | pkcs5 => simp [padBytes, padPkcs5, hle]
  | oneAndZeros =>
    rw [padBytes, padOneAndZeros]
    split
    · exact Nat.le_add_right ..
    · simp; omega
  | lastByte =>
    rw [padBytes, padLastByte]
    split
    · exact Nat.le_add_right ..
    · simp; omega
  | none => exact Nat.le_add_right ..
  | spaces =>
    rw [padBytes, padSpaces]
    split
    · exact Nat.le_add_right ..
    · simp; omega

theorem unpadCounted_length_le (data : List Byte) : (unpadCounted data).length ≤ data.length := by
  unfold unpadCounted
  split
  · rfl
  · split <;> simp

theorem unpadOneAndZeros_length_le (data : List Byte) : (unpadOneAndZeros data).length ≤ data.length := by
  unfold unpadOneAndZeros
  split
  next rest hscan =>
    obtain ⟨z, -, hdata⟩ := (markerScan_eq_some 8 data.reverse rest).mp hscan
    have hlen := congrArg List.length hdata
    simp at hlen ⊢
    omega
  next => rfl

theorem unpadSpaces_length_le (data : List Byte) : (unpadSpaces data).length ≤ data.length := by
  obtain ⟨k, -, hdata, -⟩ := dropSpaces_spec 8 data.reverse
  have hlen := congrArg List.length hdata
  simp [unpadSpaces] at hlen ⊢
  omega

/-- Unpadding never lengthens (R177 to R181). -/
theorem unpadBytes_length_le (scheme : PadScheme) (data : List Byte) :
    (unpadBytes scheme data).length ≤ data.length := by
  cases scheme with
  | pkcs5 | lastByte => exact unpadCounted_length_le data
  | oneAndZeros => exact unpadOneAndZeros_length_le data
  | none => rfl
  | spaces => exact unpadSpaces_length_le data

/-! ### What a command can do -/

/-- The next states a command can answer from `s` (10_state.md R29; 60_exceptions.md R302): it fails and writes nothing, INIT latches a
configuration, SET_IV writes the IV, or another command sends its output and writes nothing. -/
inductive Answer (s : State) : Instr → State → Prop where
  | failed {i : Instr} {status : Status} (hstatus : status ≠ .ok) : Answer s i (emit (errorResponse status) s)
  | init (mode : Mode) (scheme : PadScheme) {key : List Byte} (hkey : key ≠ []) :
      Answer s (.init mode scheme key) (emit (okResponse []) (latchConfig (derive key) mode scheme s))
  | setIv {iv : List Byte} (hkeyed : s.keyed = true) (hlen : iv.length = 8) :
      Answer s (.setIv iv) (emit (okResponse []) (writeIv (blockOperand iv) s))
  | output {i : Instr} (hinit : ∀ mode scheme key, i ≠ .init mode scheme key) (hsetIv : ∀ iv, i ≠ .setIv iv)
      (text : Bool) {out : List Byte} (hlen : out.length ≤ i.payload.length + 8) :
      Answer s i (emit ⟨.ok, text, out⟩ s)

section
variable {s t : State} {i : Instr} {go : Result}

theorem raise_answer {status : Status} (h : raise status s = .next t) (hstatus : status ≠ .ok) : Answer s i t := by
  rw [raise_inv h]
  exact .failed hstatus

/-- A command that answers OK with `out` and is neither INIT nor SET_IV. -/
theorem succeed_answer {out : List Byte} (h : succeed out s = .next t) (hlen : out.length ≤ i.payload.length + 8)
    (hinit : ∀ mode scheme key, i ≠ .init mode scheme key) (hsetIv : ∀ iv, i ≠ .setIv iv) : Answer s i t := by
  rw [succeed_inv h]
  exact .output hinit hsetIv false hlen

/-- Behind the KEYED check it is enough to look at the command of a keyed block. -/
theorem requireKeyed_answer (h : requireKeyed s go = .next t) (hgo : s.keyed = true → go = .next t → Answer s i t) :
    Answer s i t := by
  rcases requireKeyed_inv h with ⟨hkeyed, h⟩ | ⟨-, rfl⟩
  · exact hgo hkeyed h
  · exact .failed nofun

theorem requireIv_answer (h : requireIv s go = .next t) (hgo : go = .next t → Answer s i t) : Answer s i t := by
  rcases requireIv_inv h with ⟨-, h⟩ | ⟨-, rfl⟩
  · exact hgo h
  · exact .failed nofun

theorem requireIvIfCbc_answer (h : requireIvIfCbc s go = .next t) (hgo : go = .next t → Answer s i t) :
    Answer s i t := by
  rcases requireIvIfCbc_inv h with ⟨-, h⟩ | ⟨-, -, rfl⟩
  · exact hgo h
  · exact .failed nofun

theorem requireAligned_answer {bytes : List Byte} (h : requireAligned bytes s go = .next t)
    (hgo : bytes.length % 8 = 0 → go = .next t → Answer s i t) : Answer s i t := by
  rcases requireAligned_inv h with ⟨halign, h⟩ | ⟨-, rfl⟩
  · exact hgo halign h
  · exact .failed nofun

theorem requireLength_answer {n : Nat} {status : Status} {payload : List Byte}
    (h : requireLength n status payload s go = .next t) (hstatus : status ≠ .ok)
    (hgo : payload.length = n → go = .next t → Answer s i t) : Answer s i t := by
  rcases requireLength_inv h with ⟨hlen, h⟩ | ⟨-, rfl⟩
  · exact hgo hlen h
  · exact .failed hstatus

theorem execInit_answer {mode : Mode} {scheme : PadScheme} {key : List Byte}
    (h : execInit mode scheme key s = .next t) : Answer s (.init mode scheme key) t := by
  unfold execInit at h
  split_ifs at h with hempty
  · exact raise_answer h nofun
  · rw [succeed_inv h]
    exact .init mode scheme (by simpa using hempty)

theorem execSetIv_answer {iv : List Byte} (h : execSetIv iv s = .next t) : Answer s (.setIv iv) t := by
  refine requireKeyed_answer h fun hkeyed h => requireLength_answer h nofun fun hlen h => ?_
  rw [succeed_inv h]
  exact .setIv hkeyed hlen

theorem execEncode_answer {data : List Byte} (h : execEncode data s = .next t) : Answer s (.encode data) t := by
  refine requireKeyed_answer h fun _ h => requireIvIfCbc_answer h fun h => requireAligned_answer h fun halign h => ?_
  refine succeed_answer h ?_ nofun nofun
  rw [encryptWithMode_length s halign]
  exact padBytes_length_le s.padding data

theorem execDecode_answer {itype rtype : TypeCode} {data : List Byte} (h : execDecode itype rtype data s = .next t) :
    Answer s (.decode itype rtype data) t := by
  refine requireKeyed_answer h fun _ h => ?_
  split at h
  · exact raise_answer h nofun
  refine requireAligned_answer h fun halign h => requireIvIfCbc_answer h fun h => ?_
  have hlen : (unpadBytes s.padding (decryptWithMode s data)).length ≤ data.length := by
    simpa [decryptWithMode_length s halign] using unpadBytes_length_le s.padding (decryptWithMode s data)
  split_ifs at h
  · exact raise_answer h nofun
  · cases h
    exact .output (i := .decode itype rtype data) nofun nofun _ (Nat.le_add_right_of_le hlen)

theorem execFEval_answer {data : List Byte} (h : execFEval data s = .next t) : Answer s (.fEval data) t :=
  requireKeyed_answer h fun _ h => requireLength_answer h nofun fun _ h =>
    succeed_answer h (by simp) nofun nofun

theorem execEncBlock_answer {data : List Byte} (h : execEncBlock data s = .next t) : Answer s (.encBlock data) t :=
  requireKeyed_answer h fun _ h => requireLength_answer h nofun fun _ h =>
    succeed_answer h (by simp) nofun nofun

theorem execDecBlock_answer {data : List Byte} (h : execDecBlock data s = .next t) : Answer s (.decBlock data) t :=
  requireKeyed_answer h fun _ h => requireLength_answer h nofun fun _ h =>
    succeed_answer h (by simp) nofun nofun

theorem execPad_answer {scheme : PadScheme} {data : List Byte} (h : execPad scheme data s = .next t) :
    Answer s (.pad scheme data) t :=
  succeed_answer h (padBytes_length_le scheme data) nofun nofun

theorem execUnpad_answer {scheme : PadScheme} {data : List Byte} (h : execUnpad scheme data s = .next t) :
    Answer s (.unpad scheme data) t :=
  succeed_answer h (Nat.le_add_right_of_le (unpadBytes_length_le scheme data)) nofun nofun

theorem execEcbEnc_answer {data : List Byte} (h : execEcbEnc data s = .next t) : Answer s (.ecbEnc data) t :=
  requireKeyed_answer h fun _ h => requireAligned_answer h fun halign h =>
    succeed_answer h (Nat.le_add_right_of_le (ecbEncrypt_length _ halign).le) nofun nofun

theorem execEcbDec_answer {data : List Byte} (h : execEcbDec data s = .next t) : Answer s (.ecbDec data) t :=
  requireKeyed_answer h fun _ h => requireAligned_answer h fun halign h =>
    succeed_answer h (Nat.le_add_right_of_le (ecbDecrypt_length _ halign).le) nofun nofun

theorem execCbcEnc_answer {data : List Byte} (h : execCbcEnc data s = .next t) : Answer s (.cbcEnc data) t :=
  requireKeyed_answer h fun _ h => requireIv_answer h fun h => requireAligned_answer h fun halign h =>
    succeed_answer h (Nat.le_add_right_of_le (cbcEncrypt_length _ _ halign).le) nofun nofun

theorem execCbcDec_answer {data : List Byte} (h : execCbcDec data s = .next t) : Answer s (.cbcDec data) t :=
  requireKeyed_answer h fun _ h => requireAligned_answer h fun halign h => requireIv_answer h fun h =>
    succeed_answer h (Nat.le_add_right_of_le (cbcDecrypt_length _ _ halign).le) nofun nofun

/-- Every command does one of the four things of `Answer`. -/
theorem exec_answer (h : exec i s = .next t) : Answer s i t := by
  cases i with
  | init mode scheme key => exact execInit_answer h
  | setIv iv => exact execSetIv_answer h
  | encode data => exact execEncode_answer h
  | decode itype rtype data => exact execDecode_answer h
  | fEval data => exact execFEval_answer h
  | encBlock data => exact execEncBlock_answer h
  | decBlock data => exact execDecBlock_answer h
  | pad scheme data => exact execPad_answer h
  | unpad scheme data => exact execUnpad_answer h
  | ecbEnc data => exact execEcbEnc_answer h
  | ecbDec data => exact execEcbDec_answer h
  | cbcEnc data => exact execCbcEnc_answer h
  | cbcDec data => exact execCbcDec_answer h

end

/-! ### The invariant under each write of the state -/

theorem errorResponse_legal (p : Params) (status : Status) : (errorResponse status).legal p :=
  ⟨fun _ => ⟨rfl, rfl⟩, Nat.zero_le _⟩

theorem Response.legal_of_ok {p : Params} {text : Bool} {out : List Byte} (h : out.length ≤ p.maxPayloadBytes + 8) :
    Response.legal p ⟨.ok, text, out⟩ :=
  ⟨fun hne => absurd rfl hne, h⟩

theorem okResponse_nil_legal (p : Params) : (okResponse []).legal p := Response.legal_of_ok (Nat.zero_le _)

namespace State.Inv
variable {s t : State}

protected theorem emit (hs : s.Inv) {r : Response} (hr : r.legal s.params) : (emit r s).Inv where
  params_wf := hs.params_wf
  iv_keyed := hs.iv_keyed
  keys_derived := hs.keys_derived
  responses_legal := by
    intro r' hr'
    rcases List.mem_append.mp hr' with hold | hnew
    · exact hs.responses_legal r' hold
    · rwa [List.mem_singleton.mp hnew]

protected theorem latchConfig (hs : s.Inv) (mode : Mode) (scheme : PadScheme) {key : List Byte} (hkey : key ≠ [])
    (hlen : key.length ≤ s.params.maxPayloadBytes) : (latchConfig (derive key) mode scheme s).Inv where
  params_wf := hs.params_wf
  iv_keyed := nofun
  keys_derived := fun _ => ⟨key, hkey, hlen, rfl⟩
  responses_legal := hs.responses_legal

protected theorem writeIv (hs : s.Inv) (iv : Block) (hkeyed : s.keyed = true) : (writeIv iv s).Inv where
  params_wf := hs.params_wf
  iv_keyed := fun _ => hkeyed
  keys_derived := hs.keys_derived
  responses_legal := hs.responses_legal

protected theorem hostReset (hs : s.Inv) (later : List HostEvent) : (hostReset later s).Inv where
  params_wf := hs.params_wf
  iv_keyed := nofun
  keys_derived := nofun
  responses_legal := hs.responses_legal

protected theorem consume (hs : s.Inv) (later : List HostEvent) : (consume later s).Inv where
  params_wf := hs.params_wf
  iv_keyed := hs.iv_keyed
  keys_derived := hs.keys_derived
  responses_legal := hs.responses_legal

/-- A command whose payload is not too large keeps the invariant. -/
protected theorem answer (hs : s.Inv) {i : Instr} (hlen : i.payload.length ≤ s.params.maxPayloadBytes)
    (h : Answer s i t) : t.Inv := by
  cases h with
  | failed _ => exact hs.emit (errorResponse_legal _ _)
  | init mode scheme hkey => exact (hs.latchConfig mode scheme hkey hlen).emit (okResponse_nil_legal _)
  | setIv hkeyed _ => exact (hs.writeIv _ hkeyed).emit (okResponse_nil_legal _)
  | output _ _ text hout => exact hs.emit (Response.legal_of_ok (hout.trans (Nat.add_le_add_right hlen 8)))

/-- A received frame keeps the invariant, accepted or rejected. -/
protected theorem runFrame (hs : s.Inv) {f : Frame} (hf : f.payload.length = f.length) (h : runFrame f s = .next t) :
    t.Inv := by
  unfold Machine.runFrame at h
  split at h
  next i hi =>
    obtain ⟨hpayload, hlen⟩ := decodeFrame_ok_payload hi
    exact hs.answer (by rwa [hpayload, hf]) (exec_answer h)
  next e _ =>
    rw [raise_inv h]
    exact hs.emit (errorResponse_legal _ _)

protected theorem step (hs : s.Inv) (h : step s = .next t) : t.Inv := by
  unfold Machine.step at h
  cases htrans : nextTransaction s.inbox with
  | command f later =>
    rw [htrans] at h
    exact (hs.consume later).runFrame (nextTransaction_length htrans) h
  | reset later =>
    rw [htrans] at h
    cases h
    exact hs.hostReset later
  | waiting =>
    rw [htrans] at h
    cases h
    exact hs

end State.Inv

end Sys2Proof.Machine

/-! ### The obligations -/

section
open Sys2Proof Sys2Proof.Machine

/-- Settles O12: each write of the state keeps the invariant, and `exec_answer` says that a command makes no other. -/
theorem invariantIsKeptByEveryStep : Obligations.InvariantIsKeptByEveryStep :=
  fun _ _ hs hstep => hs.step hstep

/-- Settles O11: the decoder reads EXPOSE_PRIMITIVES only for a primitive opcode, and both ranges are assigned throughout. -/
theorem exposePrimitivesGatesOnlyThePrimitives : Obligations.ExposePrimitivesGatesOnlyThePrimitives := by
  refine fun n f => ⟨fun hrange => ?_, fun hrange => ?_⟩
  · obtain ⟨o, ho, hprim⟩ := opcodeOf_primitive_range hrange
    simp [decodeFrame_illegalCommand_iff, ho, hprim]
  · obtain ⟨o, ho, hfacade⟩ := opcodeOf_facade_range hrange
    refine ⟨decodeFrame_exposePrimitives_irrel n false true ho hfacade, ?_⟩
    simp [decodeFrame_illegalCommand_iff, ho, hfacade]

end

/-!
SUPPORT. Proofs of the statements about the state (10_state.md): registers that hold no value cannot be read (R38), which command writes what
(R29), what KEYED gates (R23), the state after reset (R39) and the control registers (R28). What later proofs can use: `State.SameReadable.exec`
and `State.SameReadable.step`, which answer for two states at once and so also say that a command and a step always answer a next state.
-/

/-! ### What registers without a value can change -/

namespace Sys2Proof.Machine

/-- Two answers that the host cannot tell apart: next states, with the same responses and the same readable registers. -/
inductive AnswersAlike : Result → Result → Prop where
  | next {t t' : State} (h : t.SameReadable t') : AnswersAlike (.next t) (.next t')

section
variable {s s' : State}

/-- The driver that MODE chooses reads the IV only with MODE = CBC (45_facade.md R223). -/
theorem encryptWithMode_congr (hmode : s.mode = s'.mode) (hkeys : s.keys = s'.keys)
    (hiv : s.mode = .cbc → ivBlock s = ivBlock s') (data : List Byte) :
    encryptWithMode s data = encryptWithMode s' data := by
  unfold encryptWithMode
  rw [← hmode, ← hkeys]
  split
  · rfl
  next hcbc => rw [hiv hcbc]

theorem decryptWithMode_congr (hmode : s.mode = s'.mode) (hkeys : s.keys = s'.keys)
    (hiv : s.mode = .cbc → ivBlock s = ivBlock s') (data : List Byte) :
    decryptWithMode s data = decryptWithMode s' data := by
  unfold decryptWithMode
  rw [← hmode, ← hkeys]
  split
  · rfl
  next hcbc => rw [hiv hcbc]

end

namespace State.SameReadable
variable {s s' : State} {go go' : Result}

protected theorem emit (h : s.SameReadable s') (r : Response) : (emit r s).SameReadable (emit r s') where
  params := h.params
  keyed := h.keyed
  ivValid := h.ivValid
  inbox := h.inbox
  outbox := congrArg (· ++ [r]) h.outbox
  configured := h.configured
  iv := h.iv

/-- The configuration latch writes every register that KEYED = 0 left without a value. -/
protected theorem latchConfig (h : s.SameReadable s') (keys : Schedule) (mode : Mode) (scheme : PadScheme) :
    (latchConfig keys mode scheme s).SameReadable (latchConfig keys mode scheme s') where
  params := h.params
  keyed := rfl
  ivValid := rfl
  inbox := h.inbox
  outbox := h.outbox
  configured := fun _ => ⟨rfl, rfl, rfl⟩
  iv := nofun

protected theorem writeIv (h : s.SameReadable s') (iv : Block) : (writeIv iv s).SameReadable (writeIv iv s') where
  params := h.params
  keyed := h.keyed
  ivValid := rfl
  inbox := h.inbox
  outbox := h.outbox
  configured := h.configured
  iv := fun _ => ⟨rfl, rfl⟩

protected theorem consume (h : s.SameReadable s') (later : List HostEvent) :
    (consume later s).SameReadable (consume later s') where
  params := h.params
  keyed := h.keyed
  ivValid := h.ivValid
  inbox := rfl
  outbox := h.outbox
  configured := h.configured
  iv := h.iv

protected theorem hostReset (h : s.SameReadable s') (later : List HostEvent) :
    (hostReset later s).SameReadable (hostReset later s') where
  params := h.params
  keyed := rfl
  ivValid := rfl
  inbox := rfl
  outbox := h.outbox
  configured := nofun
  iv := nofun

/-! ### The shared answers and checks: each lets the same commands go on from both states -/

protected theorem succeed (h : s.SameReadable s') (out : List Byte) :
    AnswersAlike (succeed out s) (succeed out s') := .next (h.emit (okResponse out))

protected theorem raise (h : s.SameReadable s') (status : Status) :
    AnswersAlike (raise status s) (raise status s') := .next (h.emit (errorResponse status))

/-- Behind the KEYED check MODE, PADDING, P and S are the same (R38). -/
protected theorem requireKeyed (h : s.SameReadable s')
    (hgo : s.mode = s'.mode → s.padding = s'.padding → s.keys = s'.keys → AnswersAlike go go') :
    AnswersAlike (requireKeyed s go) (requireKeyed s' go') := by
  cases hk : s.keyed with
  | false =>
    rw [requireKeyed_of_unkeyed hk, requireKeyed_of_unkeyed (h.keyed ▸ hk)]
    exact h.raise _
  | true =>
    obtain ⟨hmode, hpadding, hkeys⟩ := h.configured hk
    rw [requireKeyed_of_keyed hk, requireKeyed_of_keyed (h.keyed ▸ hk)]
    exact hgo hmode hpadding hkeys

/-- Behind the IV_VALID check the IV is the same (R24). -/
protected theorem requireIv (h : s.SameReadable s') (hgo : ivBlock s = ivBlock s' → AnswersAlike go go') :
    AnswersAlike (requireIv s go) (requireIv s' go') := by
  cases hv : s.ivValid with
  | false =>
    rw [requireIv_of_invalid hv, requireIv_of_invalid (h.ivValid ▸ hv)]
    exact h.raise _
  | true =>
    obtain ⟨hl, hr⟩ := h.iv hv
    rw [requireIv_of_valid hv, requireIv_of_valid (h.ivValid ▸ hv)]
    exact hgo (by rw [ivBlock, ivBlock, hl, hr])

/-- Behind the check of ENCODE and DECODE the IV is the same where MODE has it read. -/
protected theorem requireIvIfCbc (h : s.SameReadable s') (hmode : s.mode = s'.mode)
    (hgo : (s.mode = .cbc → ivBlock s = ivBlock s') → AnswersAlike go go') :
    AnswersAlike (requireIvIfCbc s go) (requireIvIfCbc s' go') := by
  unfold Machine.requireIvIfCbc
  rw [← hmode]
  split
  · exact h.requireIv fun hiv => hgo fun _ => hiv
  next hecb => exact hgo fun hcbc => absurd hcbc hecb

protected theorem requireAligned (h : s.SameReadable s') (bytes : List Byte) (hgo : AnswersAlike go go') :
    AnswersAlike (requireAligned bytes s go) (requireAligned bytes s' go') := by
  unfold Machine.requireAligned
  split
  · exact hgo
  · exact h.raise _

protected theorem requireLength (h : s.SameReadable s') (n : Nat) (status : Status) (payload : List Byte)
    (hgo : AnswersAlike go go') :
    AnswersAlike (requireLength n status payload s go) (requireLength n status payload s' go') := by
  unfold Machine.requireLength
  split
  · exact hgo
  · exact h.raise _

/-! ### Commands and steps -/

protected theorem execInit (h : s.SameReadable s') (mode : Mode) (scheme : PadScheme) (key : List Byte) :
    AnswersAlike (execInit mode scheme key s) (execInit mode scheme key s') := by
  unfold Machine.execInit
  split
  · exact h.raise _
  · exact (h.latchConfig _ _ _).succeed _

protected theorem execEncode (h : s.SameReadable s') (data : List Byte) :
    AnswersAlike (execEncode data s) (execEncode data s') := by
  refine h.requireKeyed fun hmode hpadding hkeys => h.requireIvIfCbc hmode fun hiv => ?_
  rw [← hpadding, ← encryptWithMode_congr hmode hkeys hiv]
  exact h.requireAligned _ (h.succeed _)

protected theorem execDecode (h : s.SameReadable s') (itype rtype : TypeCode) (data : List Byte) :
    AnswersAlike (execDecode itype rtype data s) (execDecode itype rtype data s') := by
  refine h.requireKeyed fun hmode hpadding hkeys => ?_
  split
  · exact h.raise _
  refine h.requireAligned _ (h.requireIvIfCbc hmode fun hiv => ?_)
  rw [← hpadding, ← decryptWithMode_congr hmode hkeys hiv]
  split
  · exact h.raise _
  · exact .next (h.emit _)

/-- Every command answers alike from two states that differ only in registers without a value: it reads P, S, MODE and PADDING behind
the KEYED check and the IV behind the IV_VALID check. -/
protected theorem exec (h : s.SameReadable s') (i : Instr) : AnswersAlike (exec i s) (exec i s') := by
  cases i with
  | init mode scheme key => exact h.execInit mode scheme key
  | setIv iv => exact h.requireKeyed fun _ _ _ => h.requireLength _ _ _ ((h.writeIv _).succeed _)
  | encode data => exact h.execEncode data
  | decode itype rtype data => exact h.execDecode itype rtype data
  | fEval data | encBlock data | decBlock data =>
    exact h.requireKeyed fun _ _ hkeys => h.requireLength _ _ _ (hkeys ▸ h.succeed _)
  | pad scheme data | unpad scheme data => exact h.succeed _
  | ecbEnc data | ecbDec data => exact h.requireKeyed fun _ _ hkeys => h.requireAligned _ (hkeys ▸ h.succeed _)
  | cbcEnc data =>
    exact h.requireKeyed fun _ _ hkeys => h.requireIv fun hiv => h.requireAligned _ (hkeys ▸ hiv ▸ h.succeed _)
  | cbcDec data =>
    exact h.requireKeyed fun _ _ hkeys => h.requireAligned _ (h.requireIv fun hiv => hkeys ▸ hiv ▸ h.succeed _)

/-- The decoder reads only the parameters (30_encoding.md R94). -/
protected theorem runFrame (h : s.SameReadable s') (f : Frame) : AnswersAlike (runFrame f s) (runFrame f s') := by
  unfold Machine.runFrame
  rw [← h.params]
  split
  · exact h.exec _
  · exact h.raise _

protected theorem step (h : s.SameReadable s') : AnswersAlike (step s) (step s') := by
  unfold Machine.step
  rw [← h.inbox]
  cases nextTransaction s.inbox with
  | command f later => exact (h.consume later).runFrame f
  | reset later => exact .next (h.hostReset later)
  | waiting => exact .next h

end State.SameReadable

/-! ### What a command writes -/

/-- The response sent last is the one emitted. -/
theorem emit_outbox_iff (r r' : Response) (s : State) : (emit r s).outbox = s.outbox ++ [r'] ↔ r = r' := by simp

/-- INIT checks its key and not KEYED, so it never reports NOT_INITIALIZED (40_key_schedule.md R126). -/
theorem execInit_ne_notInitialized (mode : Mode) (scheme : PadScheme) (key : List Byte) (s : State) :
    ∃ t r, execInit mode scheme key s = .next t ∧ t.outbox = s.outbox ++ [r] ∧ r.status ≠ .notInitialized := by
  unfold execInit
  split
  · exact ⟨_, errorResponse .invalidKeyLength, rfl, rfl, nofun⟩
  · exact ⟨_, okResponse [], rfl, rfl, nofun⟩

/-! ### After reset -/

/-- A reset block has no key, no IV and no responses, so of the invariant only the parameters are left to ask for. -/
theorem State.resetWith_inv {p : Params} (hp : p.wf = true) : (State.resetWith p).Inv where
  params_wf := hp
  iv_keyed := nofun
  keys_derived := nofun
  responses_legal := nofun

/-! ### Control registers (R28) -/

theorem padCode_le (scheme : PadScheme) : padCode scheme ≤ 4 := by cases scheme <;> decide

/-- The three fields of a word that is put together from them. -/
theorem extractLsb'_append_append {a b c : Nat} (x : BitVec a) (y : BitVec b) (z : BitVec c) :
    (x ++ y ++ z).extractLsb' 0 c = z ∧ (x ++ y ++ z).extractLsb' c b = y ∧ (x ++ y ++ z).extractLsb' (b + c) a = x := by
  refine ⟨BitVec.extractLsb'_append_eq_right, ?_, ?_⟩
  · rw [BitVec.extractLsb'_append_eq_of_le (Nat.le_refl c), Nat.sub_self, BitVec.extractLsb'_append_eq_right]
  · rw [BitVec.extractLsb'_append_eq_of_le (Nat.le_add_left c b), Nat.add_sub_cancel, BitVec.extractLsb'_append_eq_left]

theorem cr0_fields (s : State) :
    (cr0 s).extractLsb' 0 1 = modeCode s.mode ∧ (cr0 s).extractLsb' 1 3 = padCode s.padding ∧
      (cr0 s).extractLsb' 4 28 = 0 :=
  extractLsb'_append_append ..

theorem cr1_fields (s : State) :
    (cr1 s).extractLsb' 0 1 = BitVec.ofBool s.keyed ∧ (cr1 s).extractLsb' 1 1 = BitVec.ofBool s.ivValid ∧
      (cr1 s).extractLsb' 2 30 = 0 :=
  extractLsb'_append_append ..

/-- A field of one bit, read as that bit. -/
theorem getLsbD_of_extractLsb'_eq_ofBool {w : Word} {n : Nat} {b : Bool} (h : w.extractLsb' n 1 = BitVec.ofBool b) :
    w.getLsbD n = b := by
  simpa using congrArg (·.getLsbD 0) h

end Sys2Proof.Machine

section
open Sys2Proof Sys2Proof.Machine

/-- Settles O19: each step answers alike from the two states. -/
theorem unwrittenRegistersAreUnreadable : Obligations.UnwrittenRegistersAreUnreadable := by
  intro s s' t t' h ht ht'
  have halike := h.step
  rw [ht, ht'] at halike
  cases halike with
  | next h => exact h

/-- Settles O16: of the four things that a command can do (`exec_answer`), only the latch of INIT and the write of SET_IV change a register. -/
theorem commandsWriteOnlyWhatTheyOwn : Obligations.CommandsWriteOnlyWhatTheyOwn := by
  intro i s t r hexec hr
  cases exec_answer hexec with
  | failed hstatus =>
    obtain rfl := (emit_outbox_iff ..).mp hr
    exact (if_neg hstatus).mpr rfl
  | init mode scheme hkey =>
    obtain rfl := (emit_outbox_iff ..).mp hr
    rfl
  | setIv hkeyed hlen =>
    obtain rfl := (emit_outbox_iff ..).mp hr
    rfl
  | output hinit hsetIv text hlen =>
    obtain rfl := (emit_outbox_iff ..).mp hr
    rw [if_pos rfl]
    split
    · exact (hinit _ _ _ rfl).elim
    · exact (hsetIv _ rfl).elim
    · rfl

/-- Settles O18: the KEYED check is the first thing the ten gated commands do; the other three do not make it. -/
theorem keyGatesAllButInitPadUnpad : Obligations.KeyGatesAllButInitPadUnpad := by
  intro i s hs
  cases i with
  | init mode scheme key => exact execInit_ne_notInitialized mode scheme key s
  | pad scheme data | unpad scheme data => exact ⟨_, okResponse _, rfl, rfl, nofun⟩
  | setIv | encode | decode | fEval | encBlock | decBlock | ecbEnc | ecbDec | cbcEnc | cbcDec =>
    exact requireKeyed_of_unkeyed hs

/-- Settles O13: reset leaves only the parameters to ask for, and the standard ones are legal. -/
theorem invariantHoldsAfterReset : Obligations.InvariantHoldsAfterReset :=
  ⟨State.resetWith_inv (by decide), fun _ => State.resetWith_inv⟩

/-- Settles O24: CR0 and CR1 are put together from their fields, and no scheme's code is above 4. -/
theorem controlRegisterFields : Obligations.ControlRegisterFields := by
  intro s
  obtain ⟨hmode, hpadding, hzero⟩ := cr0_fields s
  obtain ⟨hkeyed, hivValid, hzero'⟩ := cr1_fields s
  exact ⟨hmode, hpadding, hpadding ▸ padCode_le s.padding, hzero, getLsbD_of_extractLsb'_eq_ofBool hkeyed,
    getLsbD_of_extractLsb'_eq_ofBool hivValid, hzero', rfl, rfl⟩

end

/-!
SUPPORT. Proofs of the statements about memory and the order of commands (20_memory.md): frames run one at a time in the order they arrive (R66),
idempotency (R65), and the layout of the bootstrap ROM (R54). What later proofs can use: `decodeFrame_headerOf`, which decodes the header that
the encoder writes; `step_frame`, the step on such a frame; `exec_withPort`, which says that no command reads the queues of the command port; and
`rom_eq`.
-/

/-! ### The decoder on an encoded command -/

namespace Sys2Proof

/-- A header put together from the codes of its fields, 0 where the opcode does not use one, decodes to the command of those fields
(30_encoding.md R94). -/
theorem decodeFrame_headerWord {p : Params} {o : Opcode} {mode : Mode} {scheme : PadScheme} {itype rtype : TypeCode} {n : Nat}
    {payload : List Byte} (hexpose : opcodePrimitive o = true → p.exposePrimitives = true) (hlen : n ≤ p.maxPayloadBytes)
    (hunused : ((opcodeUsesMode o || modeCode mode == 0) && (opcodeUsesPad o || padCode scheme == 0) &&
      (opcodeUsesTypes o || (typeCode itype == 0 && typeCode rtype == 0))) = true) :
    decodeFrame p
        ⟨headerWord (typeCode rtype) (typeCode itype) (padCode scheme) (modeCode mode) (opcodeValue o), n, payload⟩ =
      .ok (commandOf o mode scheme itype rtype payload) := by
  have hprim : (opcodePrimitive o && !p.exposePrimitives) = false := by
    cases ho : opcodePrimitive o with
    | false => rfl
    | true => simp [hexpose ho]
  have hzero : unusedFieldsZero o
      (headerWord (typeCode rtype) (typeCode itype) (padCode scheme) (modeCode mode) (opcodeValue o)) = true := by
    simpa only [unusedFieldsZero, headerMode_headerWord, headerPad_headerWord, headerItype_headerWord,
      headerRtype_headerWord] using hunused
  simp [decodeFrame, hprim, hzero, Nat.not_lt.mpr hlen]

/-- What a command must meet to be sent, the exposure as an implication (00_scope.md R10, R12; 30_encoding.md R80). -/
theorem Instr.wellFormed_iff (p : Params) (i : Instr) : i.wellFormed p = true ↔
    i.payload.length < 2 ^ 32 ∧ i.payload.length ≤ p.maxPayloadBytes ∧ (i.isPrimitive = true → p.exposePrimitives = true) := by
  cases hprim : i.isPrimitive <;> simp [Instr.wellFormed, hprim, and_assoc]

/-- The decoder reads a well-formed command back from the header the encoder gives it and its payload (30_encoding.md R84 to R89, R94). -/
theorem decodeFrame_headerOf {p : Params} {i : Instr} (hi : i.wellFormed p = true) :
    decodeFrame p ⟨headerOf i, i.payload.length, i.payload⟩ = .ok i := by
  obtain ⟨-, hlen, hexpose⟩ := (Instr.wellFormed_iff p i).mp hi
  cases i with
  | init =>
    exact decodeFrame_headerWord (itype := .bytes) (rtype := .bytes) hexpose hlen rfl
  | pad | unpad =>
    exact decodeFrame_headerWord (mode := .ecb) (itype := .bytes) (rtype := .bytes) hexpose hlen rfl
  | decode =>
    exact decodeFrame_headerWord (mode := .ecb) (scheme := .pkcs5) hexpose hlen rfl
  | setIv | encode | fEval | encBlock | decBlock | ecbEnc | ecbDec | cbcEnc | cbcDec =>
    exact decodeFrame_headerWord (mode := .ecb) (scheme := .pkcs5) (itype := .bytes) (rtype := .bytes) hexpose hlen rfl

end Sys2Proof

/-! ### The queues of the command port -/

namespace Sys2Proof.Machine

/-- Bytes hold no reset, so none falls into the command before them. -/
theorem noResetInCommand_sendBytes (bs : List Byte) : noResetInCommand (sendBytes bs) := by
  cases bs <;> exact fun _ h => nomatch h

/-- The state with other queues at its command port. -/
def State.withPort (inbox : List HostEvent) (outbox : List Response) (s : State) : State :=
  { s with inbox := inbox, outbox := outbox }

@[simp] theorem withPort_params (inbox : List HostEvent) (outbox : List Response) (s : State) :
    (s.withPort inbox outbox).params = s.params := rfl

theorem State.withPort_withPort (s : State) (inbox inbox' : List HostEvent) (outbox outbox' : List Response) :
    (s.withPort inbox outbox).withPort inbox' outbox' = s.withPort inbox' outbox' := rfl

/-- Two answers, from `s` and from `s` with other queues at its port, that differ in the queues alone: the same registers and the same one
response, sent after those already in the queue. The host's queue and the parameters are not written. -/
inductive AnswersPastPort (s : State) (inbox : List HostEvent) (outbox : List Response) : Result → Result → Prop where
  | next (t : State) (r : Response) (hparams : t.params = s.params) :
      AnswersPastPort s inbox outbox (.next (emit r (t.withPort s.inbox s.outbox))) (.next (emit r (t.withPort inbox outbox)))

namespace AnswersPastPort
variable {s : State} {inbox : List HostEvent} {outbox : List Response} {go go' stop stop' : Result}

protected theorem emit (r : Response) :
    AnswersPastPort s inbox outbox (.next (emit r s)) (.next (emit r (s.withPort inbox outbox))) := .next s r rfl

/-- A check chooses between two answers, and its condition does not name the queues. -/
protected theorem ite (c : Prop) [Decidable c] (hgo : AnswersPastPort s inbox outbox go go')
    (hstop : AnswersPastPort s inbox outbox stop stop') :
    AnswersPastPort s inbox outbox (if c then go else stop) (if c then go' else stop') := by
  split
  · exact hgo
  · exact hstop

protected theorem requireKeyed (h : AnswersPastPort s inbox outbox go go') :
    AnswersPastPort s inbox outbox (requireKeyed s go) (requireKeyed (s.withPort inbox outbox) go') := h.ite _ (.emit _)

protected theorem requireIv (h : AnswersPastPort s inbox outbox go go') :
    AnswersPastPort s inbox outbox (requireIv s go) (requireIv (s.withPort inbox outbox) go') := h.ite _ (.emit _)

protected theorem requireIvIfCbc (h : AnswersPastPort s inbox outbox go go') :
    AnswersPastPort s inbox outbox (requireIvIfCbc s go) (requireIvIfCbc (s.withPort inbox outbox) go') := h.requireIv.ite _ h

protected theorem requireAligned (bytes : List Byte) (h : AnswersPastPort s inbox outbox go go') :
    AnswersPastPort s inbox outbox (requireAligned bytes s go) (requireAligned bytes (s.withPort inbox outbox) go') :=
  h.ite _ (.emit _)

protected theorem requireLength (n : Nat) (status : Status) (payload : List Byte) (h : AnswersPastPort s inbox outbox go go') :
    AnswersPastPort s inbox outbox (requireLength n status payload s go)
      (requireLength n status payload (s.withPort inbox outbox) go') := h.ite _ (.emit _)

/-- Every check and every write reads registers and the payload only. -/
protected theorem exec (i : Instr) : AnswersPastPort s inbox outbox (exec i s) (exec i (s.withPort inbox outbox)) := by
  cases i with
  | init mode scheme key =>
    exact .ite _ (.emit _) (.next (latchConfig (derive key) mode scheme s) (okResponse []) rfl)
  | setIv iv => exact .requireKeyed (.requireLength _ _ _ (.next (writeIv (blockOperand iv) s) (okResponse []) rfl))
  | encode data => exact .requireKeyed (.requireIvIfCbc (.requireAligned _ (.emit _)))
  | decode itype rtype data =>
    exact .requireKeyed (.ite _ (.emit _) (.requireAligned _ (.requireIvIfCbc (.ite _ (.emit _) (.emit _)))))
  | fEval data | encBlock data | decBlock data => exact .requireKeyed (.requireLength _ _ _ (.emit _))
  | pad scheme data | unpad scheme data => exact .emit _
  | ecbEnc data | ecbDec data => exact .requireKeyed (.requireAligned _ (.emit _))
  | cbcEnc data => exact .requireKeyed (.requireIv (.requireAligned _ (.emit _)))
  | cbcDec data => exact .requireKeyed (.requireAligned _ (.requireIv (.emit _)))

end AnswersPastPort

/-- Every command answers a next state, and its writes and its response do not depend on the port's queues. -/
theorem exec_withPort (i : Instr) (s : State) (inbox : List HostEvent) (outbox : List Response) :
    ∃ (t : State) (r : Response), t.params = s.params ∧ exec i s = .next (emit r (t.withPort s.inbox s.outbox)) ∧
      exec i (s.withPort inbox outbox) = .next (emit r (t.withPort inbox outbox)) := by
  have h := AnswersPastPort.exec (s := s) (inbox := inbox) (outbox := outbox) i
  generalize exec i s = go, exec i (s.withPort inbox outbox) = go' at h
  cases h with
  | next t r hparams => exact ⟨t, r, hparams, rfl, rfl⟩

/-! ### Commands on the state they left -/

theorem execInit_of_ne_nil (mode : Mode) (scheme : PadScheme) {key : List Byte} (hkey : key ≠ []) (s : State) :
    execInit mode scheme key s = succeed [] (latchConfig (derive key) mode scheme s) :=
  if_neg (by simpa using hkey)

theorem execSetIv_of_keyed {iv : List Byte} {s : State} (hkeyed : s.keyed = true) (hlen : iv.length = 8) :
    execSetIv iv s = succeed [] (writeIv (blockOperand iv) s) :=
  (requireKeyed_of_keyed hkeyed).trans (requireLength_of_eq hlen)

/-- The state after a response was sent tells the response and the state before it. -/
theorem emit_inj {r r' : Response} {s s' : State} (h : emit r s = emit r' s') : r = r' ∧ s = s' := by
  cases s
  cases s'
  simp_all [emit]

/-- A command that sent a response and wrote nothing does so again. -/
theorem exec_emit_of_exec_eq_emit {i : Instr} {r : Response} {s : State} (h : exec i s = .next (emit r s)) :
    exec i (emit r s) = .next (emit r (emit r s)) := by
  obtain ⟨t, r', -, hfirst, hagain⟩ := exec_withPort i s s.inbox (s.outbox ++ [r])
  rw [h, Host.Outcome.next.injEq] at hfirst
  obtain ⟨rfl, hs⟩ := emit_inj hfirst
  rwa [← State.withPort_withPort t s.inbox _ s.outbox, ← hs] at hagain

/-- A command repeated on the state it left answers the same response and writes nothing new (20_memory.md R65). -/
theorem exec_again {i : Instr} {s t : State} (h : exec i s = .next t) :
    ∃ r, t.outbox = s.outbox ++ [r] ∧ exec i t = .next (emit r t) := by
  cases exec_answer h with
  | failed _ | output _ _ _ _ => exact ⟨_, rfl, exec_emit_of_exec_eq_emit h⟩
  | init mode scheme hkey => exact ⟨_, rfl, execInit_of_ne_nil mode scheme hkey _⟩
  | setIv hkeyed hlen => exact ⟨_, rfl, execSetIv_of_keyed hkeyed hlen⟩

/-- A command other than INIT and SET_IV only sends its response (10_state.md R29). -/
theorem exec_emits {i : Instr} {s t : State} (hinit : ∀ mode scheme key, i ≠ .init mode scheme key) (hsetIv : ∀ iv, i ≠ .setIv iv)
    (h : exec i s = .next t) : ∃ r, t = emit r s := by
  cases exec_answer h with
  | failed _ | output _ _ _ _ => exact ⟨_, rfl⟩
  | init => exact (hinit _ _ _ rfl).elim
  | setIv => exact (hsetIv _ rfl).elim

/-! ### A queue of frames -/

/-- The frame of a well-formed command at the head of the queue is taken and its command runs (30_encoding.md R80, R94). -/
theorem step_frame {i : Instr} {s : State} {later : List HostEvent} (hi : i.wellFormed s.params = true)
    (hlater : noResetInCommand later) (hinbox : s.inbox = sendBytes (encode i) ++ later) :
    step s = exec i (consume later s) := by
  obtain ⟨hfits, -, -⟩ := (Instr.wellFormed_iff s.params i).mp hi
  rw [step, hinbox, encode, nextTransaction_frame _ hfits hlater, runTransaction, runFrame, consume_params, decodeFrame_headerOf hi]

/-- A run whose first step answers a next state goes on from there. -/
theorem run_succ (M : Host.Core) {s t : M.State} (h : M.step s = .next t) (k : Nat) : M.run (k + 1) s = M.run k t := by
  rw [Host.Core.run, h]

/-! ### The bootstrap ROM (20_memory.md R54) -/

/-- The ROM is P_INIT and then the tables of S_INIT, one after the other. -/
theorem rom_eq : rom = (pInit ++ sInit.flatten).toList := by
  rw [Vector.toList_append]
  simp [rom, pInit, sInit]

theorem rom_length : rom.length = 1042 := by
  rw [rom_eq, Vector.length_toList]

/-- P_INIT is the first 18 words of the ROM. -/
theorem rom_pInit (i : Fin 18) : rom[i.val]? = some (pInit.get i) := by
  rw [rom_eq, Vector.getElem?_toList, Vector.getElem?_append_left i.isLt, Vector.getElem?_eq_getElem i.isLt]
  rfl

/-- Table b of S_INIT begins 256·b words after P_INIT. -/
theorem rom_sInit (b : Fin 4) (j : Fin 256) : rom[18 + 256 * b.val + j.val]? = some ((sInit.get b).get j) := by
  have hk : 256 * b.val + j.val < 4 * 256 := by omega
  have hb : (256 * b.val + j.val) / 256 = b.val := by omega
  have hj : (256 * b.val + j.val) % 256 = j.val := by omega
  rw [rom_eq, Vector.getElem?_toList, Vector.getElem?_append_right (by omega), Nat.add_assoc, Nat.add_sub_cancel_left,
    Vector.getElem?_eq_getElem hk, Vector.getElem_flatten hk]
  simp only [hb, hj]
  rfl

end Sys2Proof.Machine

section
open Sys2Proof Sys2Proof.Machine

/-- Settles O9, by induction on the commands: a step runs the first one, which leaves the other frames in the queue and does not read them. -/
theorem framesRunInArrivalOrder : Obligations.FramesRunInArrivalOrder := by
  intro s is
  induction is generalizing s with
  | nil =>
    intro _ hinbox
    change s.inbox = [] at hinbox
    rw [← hinbox]
    rfl
  | cons i is ih =>
    intro hwf hinbox
    rw [List.flatMap_cons, sendBytes_append] at hinbox
    obtain ⟨hi, his⟩ := List.forall_mem_cons.mp hwf
    obtain ⟨t, r, hparams, hexec, hempty⟩ := exec_withPort i (consume (sendBytes (is.flatMap encode)) s) [] s.outbox
    have hstep := (step_frame hi (noResetInCommand_sendBytes _) hinbox).trans hexec
    rw [List.length_cons, run_succ core hstep, ih _ (by simpa [hparams] using his) rfl]
    exact congrArg (List.foldl _ · is) hempty.symm

/-- Settles O20: what a command that wrote nothing answers does not depend on the responses before it, and INIT and SET_IV write what is already
there the second time. -/
theorem commandsAreIdempotent : Obligations.CommandsAreIdempotent := by
  refine ⟨fun _ _ _ => exec_again, fun _ _ _ => exec_emits, fun mode scheme key s s' t t' hkey ht ht' => ?_⟩
  obtain rfl := succeed_inv ((execInit_of_ne_nil mode scheme hkey s).symm.trans ht)
  obtain rfl := succeed_inv ((execInit_of_ne_nil mode scheme hkey s').symm.trans ht')
  exact ⟨rfl, rfl, rfl, rfl, rfl⟩

/-- Settles O5: the frame is received whole and decodes to its command. -/
theorem stepRunsTheDecodedCommand : Obligations.StepRunsTheDecodedCommand := fun _ _ _ => step_frame

/-- Settles O25: the ROM is P_INIT and the flattened S_INIT, so its words are found by the position in the one or the other. -/
theorem romLayout : Obligations.RomLayout := ⟨rom_length, rom_pInit, rom_sInit⟩

end

/-!
SUPPORT. Proofs of the statements about the encoding (30_encoding.md): decode and encode agree (R94), the decoder accepts the rows of the opcode
table (R84, R89), and responses (R82, R83). What later proofs can use: `decodeFrame_ok_iff` and `meetsRow_iff`, which say once when the decoder
accepts a frame and when a header meets a row; `step_complete_frame`, the step on any complete frame; `SendsText.exec`, which says when a response
has the TEXT bit; and `eq_errorResponse_of_ne_ok`.
-/

/-! ### The decoder on an accepted frame -/

namespace Sys2Proof

/-- The decoder accepts a frame exactly when it passes every check of R94, as the command of its fields. -/
theorem decodeFrame_ok_iff (p : Params) (f : Frame) (i : Instr) :
    decodeFrame p f = .ok i ↔
      ∃ o scheme, opcodeOf (headerOpc f.header) = some o ∧
        (opcodePrimitive o = true → p.exposePrimitives = true) ∧ f.length ≤ p.maxPayloadBytes ∧
        headerRsvd f.header = 0 ∧ unusedFieldsZero o f.header = true ∧
        padOfCode (headerPad f.header) = some scheme ∧
        i = commandOf o (modeOfCode (headerMode f.header)) scheme (typeOfCode (headerItype f.header))
          (typeOfCode (headerRtype f.header)) f.payload := by
  refine ⟨decodeFrame_ok_inv, ?_⟩
  rintro ⟨o, scheme, ho, hexpose, hlen, hrsvd, hunused, hpad, rfl⟩
  have hprim : ¬ (opcodePrimitive o = true ∧ p.exposePrimitives = false) := by simpa using hexpose
  simp [decodeFrame, ho, hprim, Nat.not_lt.mpr hlen, hrsvd, hunused, hpad]

/-- The primitive commands are those of the primitive opcodes (R84). -/
@[simp] theorem commandOf_isPrimitive (o : Opcode) (mode : Mode) (scheme : PadScheme) (itype rtype : TypeCode)
    (payload : List Byte) : (commandOf o mode scheme itype rtype payload).isPrimitive = opcodePrimitive o := by
  cases o <;> rfl

/-- The encoder writes the codes of the operands into the header when those the opcode does not use have code 0 (R89). -/
theorem headerOf_commandOf {o : Opcode} {mode : Mode} {scheme : PadScheme} {itype rtype : TypeCode} (payload : List Byte)
    (hunused : ((opcodeUsesMode o || modeCode mode == 0) && (opcodeUsesPad o || padCode scheme == 0) &&
      (opcodeUsesTypes o || (typeCode itype == 0 && typeCode rtype == 0))) = true) :
    headerOf (commandOf o mode scheme itype rtype payload) =
      headerWord (typeCode rtype) (typeCode itype) (padCode scheme) (modeCode mode) (opcodeValue o) := by
  simp only [Bool.and_eq_true, Bool.or_eq_true, beq_iff_eq] at hunused
  obtain ⟨⟨hmode, hpad⟩, htypes⟩ := hunused
  cases o with
  | init =>
    obtain ⟨hitype, hrtype⟩ := htypes.resolve_left (by decide)
    rw [hitype, hrtype]
    rfl
  | pad | unpad =>
    obtain ⟨hitype, hrtype⟩ := htypes.resolve_left (by decide)
    rw [hmode.resolve_left (by decide), hitype, hrtype]
    rfl
  | decode =>
    rw [hmode.resolve_left (by decide), hpad.resolve_left (by decide)]
    rfl
  | setIv | encode | fEval | encBlock | decBlock | ecbEnc | ecbDec | cbcEnc | cbcDec =>
    obtain ⟨hitype, hrtype⟩ := htypes.resolve_left (by decide)
    rw [hmode.resolve_left (by decide), hpad.resolve_left (by decide), hitype, hrtype]
    rfl

/-- The encoder gives the header of an accepted frame back to the command decoded from it. -/
theorem headerOf_of_decodeFrame {p : Params} {f : Frame} {i : Instr} (h : decodeFrame p f = .ok i) :
    headerOf i = f.header := by
  obtain ⟨o, scheme, ho, -, -, hrsvd, hunused, hpad, rfl⟩ := decodeFrame_ok_inv h
  have hcode := padCode_of_padOfCode hpad
  rw [headerOf_commandOf _ (by simpa only [unusedFieldsZero, modeCode_modeOfCode, hcode, typeCode_typeOfCode] using hunused)]
  rw [modeCode_modeOfCode, hcode, typeCode_typeOfCode, typeCode_typeOfCode, opcodeValue_of_opcodeOf ho, headerWord_fields _ hrsvd]

/-- An accepted command can be sent to the block that accepted it. -/
theorem wellFormed_of_decodeFrame {p : Params} {h : Word} {payload : List Byte} {i : Instr} (hfits : payload.length < 2 ^ 32)
    (hi : decodeFrame p ⟨h, payload.length, payload⟩ = .ok i) : i.wellFormed p = true := by
  obtain ⟨o, scheme, -, hexpose, hlen, -, -, -, rfl⟩ := decodeFrame_ok_inv hi
  simpa [Instr.wellFormed_iff] using ⟨hfits, hlen, hexpose⟩

/-! ### The rows of the opcode table (R84, R89) -/

/-- A header with RSVD = 0 is told by its fields (R81). -/
theorem header_eq_iff {g : Word} (hg : headerRsvd g = 0) (h : Word) :
    h = g ↔ headerRsvd h = 0 ∧ headerRtype h = headerRtype g ∧ headerItype h = headerItype g ∧
      headerPad h = headerPad g ∧ headerMode h = headerMode g ∧ headerOpc h = headerOpc g := by
  constructor
  · rintro rfl
    exact ⟨hg, rfl, rfl, rfl, rfl, rfl⟩
  · rintro ⟨hrsvd, hrtype, hitype, hpad, hmode, hopc⟩
    rw [← headerWord_fields h hrsvd, ← headerWord_fields g hg, hrtype, hitype, hpad, hmode, hopc]

/-! A field of a header under a mask is that field under the mask's. -/

@[simp] theorem headerRsvd_and (h m : Word) : headerRsvd (h &&& m) = headerRsvd h &&& headerRsvd m := BitVec.extractLsb'_and
@[simp] theorem headerRtype_and (h m : Word) : headerRtype (h &&& m) = headerRtype h &&& headerRtype m := BitVec.extractLsb'_and
@[simp] theorem headerItype_and (h m : Word) : headerItype (h &&& m) = headerItype h &&& headerItype m := BitVec.extractLsb'_and
@[simp] theorem headerPad_and (h m : Word) : headerPad (h &&& m) = headerPad h &&& headerPad m := BitVec.extractLsb'_and
@[simp] theorem headerMode_and (h m : Word) : headerMode (h &&& m) = headerMode h &&& headerMode m := BitVec.extractLsb'_and
@[simp] theorem headerOpc_and (h m : Word) : headerOpc (h &&& m) = headerOpc h &&& headerOpc m := BitVec.extractLsb'_and

theorem opcodeOf_eq_some_iff (c : Byte) (o : Opcode) : opcodeOf c = some o ↔ c = opcodeValue o := by
  constructor
  · exact fun h => (opcodeValue_of_opcodeOf h).symm
  · rintro rfl
    exact opcodeOf_opcodeValue o

/-- The part of a mask over a field: no bits where the opcode uses the field, all where it does not. -/
def fieldMask (used : Bool) (n : Nat) : BitVec n := if used then 0 else BitVec.allOnes n

/-- A field under its mask is 0 when the opcode uses it or it is 0. -/
theorem and_fieldMask_eq_zero_iff {n : Nat} (x : BitVec n) (used : Bool) :
    x &&& fieldMask used n = 0 ↔ used = true ∨ x = 0 := by
  cases used <;> simp [fieldMask]

/-- The pattern of a row: its OPC value and 0 in every other field. -/
theorem pattern_of_mem {row : TableRow} (hrow : row ∈ opcodeTable) :
    row.pattern = headerWord 0 0 0 0 (opcodeValue row.opcode) := by
  revert row
  decide

/-- The mask of a row: RSVD and OPC, and the fields that its opcode does not use. -/
theorem mask_of_mem {row : TableRow} (hrow : row ∈ opcodeTable) :
    headerRsvd row.mask = BitVec.allOnes 16 ∧ headerRtype row.mask = fieldMask (opcodeUsesTypes row.opcode) 2 ∧
      headerItype row.mask = fieldMask (opcodeUsesTypes row.opcode) 2 ∧
      headerPad row.mask = fieldMask (opcodeUsesPad row.opcode) 3 ∧
      headerMode row.mask = fieldMask (opcodeUsesMode row.opcode) 1 ∧ headerOpc row.mask = BitVec.allOnes 8 := by
  revert row
  decide

/-- Every opcode has its row. -/
theorem exists_row (o : Opcode) : ∃ row ∈ opcodeTable, row.opcode = o := by
  cases o <;> decide

/-- A header meets the mask and match of a row exactly when it passes the checks of R94 on OPC, RSVD and the unused fields. -/
theorem meetsRow_iff {row : TableRow} (hrow : row ∈ opcodeTable) (h : Word) :
    h &&& row.mask = row.pattern ↔
      opcodeOf (headerOpc h) = some row.opcode ∧ headerRsvd h = 0 ∧ unusedFieldsZero row.opcode h = true := by
  obtain ⟨hrsvd, hrtype, hitype, hpad, hmode, hopc⟩ := mask_of_mem hrow
  rw [pattern_of_mem hrow, header_eq_iff (headerRsvd_headerWord ..), opcodeOf_eq_some_iff]
  simp only [headerRsvd_and, headerRtype_and, headerItype_and, headerPad_and, headerMode_and, headerOpc_and, hrsvd, hrtype, hitype,
    hpad, hmode, hopc, headerRtype_headerWord, headerItype_headerWord, headerPad_headerWord, headerMode_headerWord,
    headerOpc_headerWord, BitVec.and_allOnes, and_fieldMask_eq_zero_iff, unusedFieldsZero, Bool.and_eq_true, Bool.or_eq_true,
    beq_iff_eq]
  tauto

end Sys2Proof

namespace Sys2Proof.Machine

/-- A complete frame at the head of the queue is taken whole and decoded (R80, R94). -/
theorem step_complete_frame {s : State} {h : Word} {payload : List Byte} {later : List HostEvent} (hfits : payload.length < 2 ^ 32)
    (hlater : noResetInCommand later) (hinbox : s.inbox = sendBytes (frameBytes h payload) ++ later) :
    step s = runFrame ⟨h, payload.length, payload⟩ (consume later s) := by
  rw [step, hinbox, nextTransaction_frame h hfits hlater, runTransaction]

/-- A table word of 32 bits is the frame of that header with no payload (log entry 7). -/
theorem tableFrameBytes_header (h : Word) : tableFrameBytes 32 h.toNat = frameBytes h [] := by
  have hh : h.toNat < 2 ^ 32 := h.isLt
  simp only [tableFrameBytes, Nat.mod_eq_of_lt hh, Nat.div_eq_of_lt hh, BitVec.ofNat_toNat, BitVec.setWidth_eq]
  rfl

/-- The header word of a command without payload decodes to it (R81 to R89). -/
theorem decodeTableWord_headerOf {i : Instr} (hi : i.payload = []) : decodeTableWord 32 (headerOf i).toNat = some i := by
  have hwf : i.wellFormed Params.standard = true := by simp [Instr.wellFormed, hi, Params.standard]
  have hframe := nextTransaction_frame (headerOf i) (payload := []) (later := []) (by decide) nofun
  have hdecode := decodeFrame_headerOf hwf
  rw [hi] at hdecode
  rw [List.append_nil] at hframe
  rw [decodeTableWord, tableFrameBytes_header, hframe]
  simp only [hdecode]

/-! ### The response of a command (R82, R83) -/

/-- The command asks for text: a DECODE with RTYPE = 1 (R88). -/
def asksForText : Instr → Bool
  | .decode _ rtype _ => rtype = .text
  | _ => false

theorem asksForText_iff (i : Instr) : asksForText i = true ↔ ∃ it d, i = .decode it .text d := by
  cases i <;> simp [asksForText]

/-- An answer that sends an error's response, or one that is OK with the TEXT bit `text`. -/
inductive SendsText (s : State) (text : Bool) : Result → Prop where
  | failed {status : Status} (hstatus : status ≠ .ok) : SendsText s text (raise status s)
  | ok {t : State} (out : List Byte) (houtbox : t.outbox = s.outbox) : SendsText s text (.next (emit ⟨.ok, text, out⟩ t))

namespace SendsText
variable {s : State} {text : Bool} {go stop : Result}

/-- A check chooses between two answers. -/
protected theorem ite (c : Prop) [Decidable c] (hgo : SendsText s text go) (hstop : SendsText s text stop) :
    SendsText s text (if c then go else stop) := by
  split
  · exact hgo
  · exact hstop

protected theorem requireKeyed (h : SendsText s text go) : SendsText s text (requireKeyed s go) := h.ite _ (.failed nofun)

protected theorem requireIv (h : SendsText s text go) : SendsText s text (requireIv s go) := h.ite _ (.failed nofun)

protected theorem requireIvIfCbc (h : SendsText s text go) : SendsText s text (requireIvIfCbc s go) := h.requireIv.ite _ h

protected theorem requireAligned (bytes : List Byte) (h : SendsText s text go) : SendsText s text (requireAligned bytes s go) :=
  h.ite _ (.failed nofun)

protected theorem requireLength (n : Nat) {status : Status} (payload : List Byte) (hstatus : status ≠ .ok)
    (h : SendsText s text go) : SendsText s text (requireLength n status payload s go) := h.ite _ (.failed hstatus)

/-- Only DECODE sets the TEXT bit, as its RTYPE asks, and only after its last check. -/
protected theorem exec (s : State) (i : Instr) : SendsText s (asksForText i) (exec i s) := by
  cases i with
  | init mode scheme key => exact .ite _ (.failed nofun) (.ok [] rfl)
  | setIv iv => exact .requireKeyed (.requireLength _ _ nofun (.ok [] rfl))
  | encode data => exact .requireKeyed (.requireIvIfCbc (.requireAligned _ (.ok _ rfl)))
  | decode itype rtype data =>
    exact .requireKeyed (.ite _ (.failed nofun) (.requireAligned _ (.requireIvIfCbc (.ite _ (.failed nofun) (.ok _ rfl)))))
  | fEval data | encBlock data | decBlock data => exact .requireKeyed (.requireLength _ _ nofun (.ok _ rfl))
  | pad scheme data | unpad scheme data => exact .ok _ rfl
  | ecbEnc data | ecbDec data => exact .requireKeyed (.requireAligned _ (.ok _ rfl))
  | cbcEnc data => exact .requireKeyed (.requireIv (.requireAligned _ (.ok _ rfl)))
  | cbcDec data => exact .requireKeyed (.requireAligned _ (.requireIv (.ok _ rfl)))

/-- The TEXT bit of the response that an answer sends. -/
theorem response_text {t : State} {r : Response} (h : SendsText s text (.next t)) (hr : t.outbox = s.outbox ++ [r]) :
    r.text = true ↔ r.status = .ok ∧ text = true := by
  generalize hanswer : Host.Outcome.next t = answer at h
  cases h with
  | failed hstatus =>
    cases hanswer
    obtain rfl := (emit_outbox_iff ..).mp hr
    simp [errorResponse, hstatus]
  | ok out houtbox =>
    cases hanswer
    rw [← houtbox] at hr
    obtain rfl := (emit_outbox_iff ..).mp hr
    simp

end SendsText

/-- The status word is put together from its fields (R83). -/
theorem statusWord_fields (r : Response) :
    (statusWord r).extractLsb' 0 8 = statusCode r.status ∧ (statusWord r).extractLsb' 8 1 = BitVec.ofBool r.text ∧
      (statusWord r).extractLsb' 9 23 = 0 :=
  extractLsb'_append_append ..

/-- A response that is not OK is an error's: no output and no TEXT bit (60_exceptions.md R301). -/
theorem eq_errorResponse_of_ne_ok {i : Instr} {s t : State} {r : Response} (hexec : exec i s = .next t)
    (hr : t.outbox = s.outbox ++ [r]) (hstatus : r.status ≠ .ok) : r = errorResponse r.status := by
  cases exec_answer hexec with
  | failed _ =>
    obtain rfl := (emit_outbox_iff ..).mp hr
    rfl
  | init | setIv | output =>
    obtain rfl := (emit_outbox_iff ..).mp hr
    exact absurd rfl hstatus

/-- The words before the payload of a frame (R80, R82). -/
theorem be32_frameBytes_header (h : Word) (payload : List Byte) : be32 (frameBytes h payload) 0 = h := by
  rw [frameBytes, List.append_assoc, be32_bytes32]

theorem be32_frameBytes_length (h : Word) (payload : List Byte) :
    be32 (frameBytes h payload) 4 = BitVec.ofNat 32 payload.length := by
  rw [frameBytes, List.append_assoc]
  exact (be32_bytes32_append h _ 0).trans (be32_bytes32 _ payload)

end Sys2Proof.Machine

section
open Sys2Proof Sys2Proof.Machine

/-- Settles O1: the frame is received whole, and its header and payload decode to the command they were written from. -/
theorem decodeOfEncodeGivesTheCommandBack : Obligations.DecodeOfEncodeGivesTheCommandBack := by
  intro p i later hi hlater
  obtain ⟨hfits, -, -⟩ := (Instr.wellFormed_iff p i).mp hi
  exact ⟨_, nextTransaction_frame (headerOf i) hfits hlater, rfl, rfl, rfl, decodeFrame_headerOf hi⟩

/-- Settles O2: the checks of the decoder leave no bit of the header that the encoder would not write. -/
theorem encodeOfDecodeGivesTheFrameBack : Obligations.EncodeOfDecodeGivesTheFrameBack := by
  intro p h payload i hfits hi
  obtain ⟨hpayload, -⟩ := decodeFrame_ok_payload hi
  exact ⟨by rw [encode, headerOf_of_decodeFrame hi, hpayload], wellFormed_of_decodeFrame hfits hi⟩

/-- Settles O3: the masks of the table are the decoder's checks on OPC, RSVD and the unused fields, and every opcode has its row. -/
theorem decoderAcceptsExactlyTheTableRows : Obligations.DecoderAcceptsExactlyTheTableRows := by
  intro p h payload i
  rw [decodeFrame_ok_iff]
  constructor
  · rintro ⟨o, scheme, ho, hexpose, hlen, hrsvd, hunused, hpad, hi⟩
    obtain ⟨row, hrow, rfl⟩ := exists_row o
    have hpadLe : headerPad h ≤ 4 := padCode_of_padOfCode hpad ▸ padCode_le scheme
    exact ⟨hlen, row, hrow, (meetsRow_iff hrow h).mpr ⟨ho, hrsvd, hunused⟩, hexpose, fun _ => hpadLe, scheme, hpad, hi⟩
  · rintro ⟨hlen, row, hrow, hmeets, hexpose, -, scheme, hpad, hi⟩
    obtain ⟨ho, hrsvd, hunused⟩ := (meetsRow_iff hrow h).mp hmeets
    exact ⟨row.opcode, scheme, ho, hexpose, hlen, hrsvd, hunused, hpad, hi⟩

/-- Settles O15: `exec_withPort`, with the queues that the port has. -/
theorem everyCommandSendsExactlyOneResponse : Obligations.EveryCommandSendsExactlyOneResponse := by
  intro i s
  obtain ⟨t, r, hparams, hexec, -⟩ := exec_withPort i s s.inbox s.outbox
  exact ⟨_, r, hexec, rfl, rfl, hparams⟩

/-- Settles O22: TEXT is set by DECODE alone, as its RTYPE asks, and never with an error. -/
theorem statusWordLayoutAndTextBit : Obligations.StatusWordLayoutAndTextBit := by
  refine ⟨fun r => ?_, fun i s t r hexec hr => ?_⟩
  · obtain ⟨hstatus, htext, hzero⟩ := statusWord_fields r
    exact ⟨hstatus, getLsbD_of_extractLsb'_eq_ofBool htext, hzero⟩
  · have hsends := SendsText.exec s i
    rw [hexec] at hsends
    rw [hsends.response_text hr, asksForText_iff]

/-- Settles O4: each word is the header that the encoder writes for its command. -/
theorem writtenOutWordsDecode : Obligations.WrittenOutWordsDecode :=
  ⟨decodeTableWord_headerOf (i := .init .cbc .pkcs5 []) rfl, decodeTableWord_headerOf (i := .init .cbc .spaces []) rfl,
    decodeTableWord_headerOf (i := .setIv []) rfl, decodeTableWord_headerOf (i := .encode []) rfl,
    decodeTableWord_headerOf (i := .decode .bytes .text []) rfl, decodeTableWord_headerOf (i := .fEval []) rfl,
    decodeTableWord_headerOf (i := .decBlock []) rfl, decodeTableWord_headerOf (i := .pad .lastByte []) rfl,
    decodeTableWord_headerOf (i := .unpad .oneAndZeros []) rfl, decodeTableWord_headerOf (i := .ecbEnc []) rfl,
    decodeTableWord_headerOf (i := .cbcDec []) rfl⟩

/-- Settles O6: the frame is received whole, and a rejection only sends its status. -/
theorem rejectedFrameReportsItsStatusOnly : Obligations.RejectedFrameReportsItsStatusOnly := by
  intro s h payload later e hfits hlater hinbox hreject
  rw [step_complete_frame hfits hlater hinbox, runFrame, consume_params, hreject]
  rfl

/-- Settles O23: a response is laid out as a frame is, and an error's has no output. -/
theorem responseFrameLayout : Obligations.ResponseFrameLayout := by
  refine ⟨fun r hfits => ⟨rfl, be32_frameBytes_header .., ?_, rfl⟩, fun i s t r hexec hr hstatus => ?_⟩
  · rw [responseBytes, be32_frameBytes_length, BitVec.toNat_ofNat, Nat.mod_eq_of_lt hfits]
  · rw [eq_errorResponse_of_ne_ok hexec hr hstatus]
    change bytes32 0 ++ [] = [0, 0, 0, 0]
    decide

end

/-!
SUPPORT. Proofs of the statements about the key schedule (40_key_schedule.md): key expansion and the keys it does not tell apart (R120, R128), key
mixing (R122), the bootstrap pass as a sequence of steps (R123, R124), and INIT (R126, R127). What later proofs can use:
`expandKey_getElem?_of_ne_nil`; `derive_eq`, which reaches the derived tables by 521 uniform steps; and `bootstrapStep_writesPair`, which says what each
of them writes.
-/

namespace Sys2Proof.Machine

/-! ### Key expansion (R120) -/

theorem expandKey_getElem?_of_ne_nil {key : List Byte} (hkey : key ≠ []) {j : Nat} (hj : j < 72) :
    (expandKey key)[j]? = key[j % key.length]? := by
  have hmod : j % key.length < key.length := Nat.mod_lt _ (List.length_pos_iff.mpr hkey)
  rw [expandKey_getElem? key hj, List.getD_eq_getElem _ _ hmod, List.getElem?_eq_getElem hmod]

/-- The expansion is the one sequence of 72 bytes with the bytes that R120 takes from the key. -/
theorem expandKey_eq_of_getElem? {key expanded : List Byte} (hkey : key ≠ []) (hlen : expanded.length = 72)
    (h : ∀ j, j < 72 → key[j % key.length]? = expanded[j]?) : expandKey key = expanded := by
  refine List.ext_getElem? fun j => ?_
  by_cases hj : j < 72
  · rw [expandKey_getElem?_of_ne_nil hkey hj, h j hj]
  · rw [List.getElem?_eq_none (by simpa using hj), List.getElem?_eq_none (by omega)]

/-- A long key is cut, since no index of the expansion reaches its length. -/
theorem expandKey_eq_take {key : List Byte} (hlen : 72 ≤ key.length) : expandKey key = key.take 72 := by
  have hkey : key ≠ [] := List.ne_nil_of_length_pos (by omega)
  refine expandKey_eq_of_getElem? hkey (by simpa using hlen) fun j hj => ?_
  rw [Nat.mod_eq_of_lt (by omega), List.getElem?_take_of_lt hj]

/-! ### Equivalent keys (R128) -/

theorem getElem?_flatten_replicate {α : Type} (l : List α) {m i : Nat} (hi : i < m * l.length) :
    (List.replicate m l).flatten[i]? = l[i % l.length]? := by
  induction m generalizing i with
  | zero => omega
  | succ m ih =>
    rw [List.replicate_succ, List.flatten_cons]
    rcases Nat.lt_or_ge i l.length with hlt | hge
    · rw [List.getElem?_append_left hlt, Nat.mod_eq_of_lt hlt]
    · have hrest : i - l.length < m * l.length := by
        rw [Nat.succ_mul] at hi
        omega
      rw [List.getElem?_append_right hge, ih hrest, ← Nat.mod_eq_sub_mod hge]

theorem expandKey_flatten_replicate {key : List Byte} (hkey : key ≠ []) {m : Nat} (hm : 0 < m) :
    expandKey (List.replicate m key).flatten = expandKey key := by
  have hlen : (List.replicate m key).flatten.length = m * key.length := by simp
  have hpos : 0 < m * key.length := Nat.mul_pos hm (List.length_pos_iff.mpr hkey)
  refine expandKey_eq_of_getElem? (List.ne_nil_of_length_pos (hlen ▸ hpos)) (expandKey_length key) fun j hj => ?_
  rw [hlen, getElem?_flatten_replicate key (Nat.mod_lt j hpos), Nat.mod_mod_of_dvd j (Nat.dvd_mul_left ..),
    expandKey_getElem?_of_ne_nil hkey hj]

theorem expandKey_take {key : List Byte} (hlen : 72 ≤ key.length) : expandKey (key.take 72) = expandKey key := by
  rw [expandKey_eq_take hlen, expandKey_eq_take (by simpa using hlen), List.take_take, Nat.min_self]

theorem expandKey_append {key : List Byte} (hlen : 72 ≤ key.length) (extra : List Byte) :
    expandKey (key ++ extra) = expandKey key := by
  rw [expandKey_eq_take hlen, expandKey_eq_take (by simp; omega), List.take_append_of_le_length hlen]

/-- The byte after a short key's own is its first again, so a key that goes on with another byte there has another expansion. -/
theorem expandKey_append_singleton_ne {first x : Byte} {rest : List Byte} (hlen : (first :: rest).length < 72) (hx : x ≠ first) :
    expandKey (first :: rest ++ [x]) ≠ expandKey (first :: rest) := by
  intro heq
  have hlast : (expandKey (first :: rest ++ [x]))[(first :: rest).length]? = some x := by
    rw [expandKey_getElem?_of_ne_nil (by simp) hlen, Nat.mod_eq_of_lt (by simp), List.getElem?_concat_length]
  have hfirst : (expandKey (first :: rest))[(first :: rest).length]? = some first := by
    rw [expandKey_getElem?_of_ne_nil (by simp) hlen, Nat.mod_self, List.getElem?_cons_zero]
  rw [heq, hfirst, Option.some.injEq] at hlast
  exact hx hlast.symm

theorem derive_congr {key key' : List Byte} (h : expandKey key = expandKey key') : derive key = derive key' := by
  rw [derive, derive, h]

/-! ### Key mixing (R122) -/

theorem mixKey_p_get (expanded : List Byte) (k : Schedule) (i : Fin 18) :
    (mixKey expanded k).p.get i = k.p.get i ^^^ be32 expanded (4 * i.val) :=
  Vector.get_ofFn ..

/-! ### What a step of the bootstrap pass writes (R123, R124) -/

/-- A pair of neighbouring words written, left half first. -/
theorem get_set_pair {n : Nat} (v : Vector Word n) {i : Nat} (hi : i + 1 < n) (l r : Word) (x : Fin n) :
    ((v.set i l).set (i + 1) r).get x = if x.val = i then l else if x.val = i + 1 then r else v.get x := by
  rw [Vector.get_eq_getElem, Vector.get_eq_getElem, Vector.getElem_set, Vector.getElem_set]
  by_cases hl : x.val = i
  · rw [if_neg (by omega), if_pos hl.symm, if_pos hl]
  · rw [if_neg (Ne.symm hl), if_neg hl]
    exact if_congr eq_comm rfl rfl

theorem writeSPair_s_get_self (k : Schedule) (b : Fin 4) (j : Fin 128) (out : Block) (x : Fin 256) :
    ((writeSPair k b j out).s.get b).get x =
      if x.val = 2 * j.val then out.l else if x.val = 2 * j.val + 1 then out.r else (k.s.get b).get x := by
  rw [← get_set_pair (k.s.get b) (by omega) out.l out.r x]
  exact congrArg (Vector.get · x) (Vector.getElem_set_self b.isLt)

theorem writeSPair_s_get_of_ne (k : Schedule) {b b' : Fin 4} (h : b ≠ b') (j : Fin 128) (out : Block) :
    (writeSPair k b j out).s.get b' = k.s.get b' :=
  Vector.getElem_set_ne b.isLt b'.isLt (Fin.val_ne_of_ne h)

theorem writePPair_writesPair (k : Schedule) (i : Fin 9) (out : Block) : WritesPair i.val out k (writePPair k i out) := by
  refine ⟨get_set_pair k.p (by omega) out.l out.r, fun b x => ?_⟩
  rw [if_neg (by omega), if_neg (by omega), writePPair_s]

/-- The step index gives the pair's position in its own table; in another table it lies before the first or after the last pair. -/
theorem writeSPair_writesPair (k : Schedule) (b : Fin 4) (j : Fin 128) (out : Block) :
    WritesPair (9 + 128 * b.val + j.val) out k (writeSPair k b j out) := by
  refine ⟨fun i => ?_, fun b' x => ?_⟩
  · rw [if_neg (by omega), if_neg (by omega), writeSPair_p]
  · by_cases hb : b = b'
    · subst hb
      rw [writeSPair_s_get_self]
      simp
    · have hval := Fin.val_ne_of_ne hb
      rw [writeSPair_s_get_of_ne k hb, if_neg (by omega), if_neg (by omega)]

/-! ### The bootstrap pass as 521 uniform steps (R123) -/

/-- The step of the bootstrap pass with step index `t` (10_state.md R34): steps 0 to 8 fill P, step 9 + 128·b + j fills S[b].
The pass ends with step 520; after it the index would begin again at S[0]. -/
def bootstrapStep (t : Nat) (st : BootState) : BootState :=
  if h : t < 9 then bootstrapPStep st ⟨t, h⟩
  else bootstrapSStep (Fin.ofNat 4 ((t - 9) / 128)) st (Fin.ofNat 128 (t - 9))

/-- The tables and the running block once `t` steps are done. -/
def bootstrapAfter (st : BootState) : Nat → BootState
  | 0 => st
  | t + 1 => bootstrapStep t (bootstrapAfter st t)

theorem bootstrapStep_p (st : BootState) (i : Fin 9) : bootstrapStep i.val st = bootstrapPStep st i :=
  dif_pos i.isLt

theorem bootstrapStep_s (st : BootState) (b : Fin 4) (j : Fin 128) :
    bootstrapStep (9 + 128 * b.val + j.val) st = bootstrapSStep b st j := by
  have hb : Fin.ofNat 4 ((9 + 128 * b.val + j.val - 9) / 128) = b := Fin.ext (by simp; omega)
  have hj : Fin.ofNat 128 (9 + 128 * b.val + j.val - 9) = j := Fin.ext (by simp; omega)
  rw [bootstrapStep, dif_neg (by omega), hb, hj]

/-- Every step index is one of P's nine or one of a table's 128. -/
theorem stepIndex_cases {t : Nat} (ht : t < 521) :
    (∃ i : Fin 9, t = i.val) ∨ ∃ (b : Fin 4) (j : Fin 128), t = 9 + 128 * b.val + j.val := by
  by_cases h : t < 9
  · exact .inl ⟨⟨t, h⟩, rfl⟩
  · exact .inr ⟨⟨(t - 9) / 128, by omega⟩, ⟨(t - 9) % 128, by omega⟩, by dsimp only; omega⟩

theorem bootstrapStep_run (t : Nat) (st : BootState) : (bootstrapStep t st).run = encryptBlock st.keys st.run := by
  unfold bootstrapStep
  split <;> rfl

theorem bootstrapStep_writesPair {t : Nat} (ht : t < 521) (st : BootState) :
    WritesPair t (bootstrapStep t st).run st.keys (bootstrapStep t st).keys := by
  rcases stepIndex_cases ht with ⟨i, rfl⟩ | ⟨b, j, rfl⟩
  · rw [bootstrapStep_p]
    exact writePPair_writesPair ..
  · rw [bootstrapStep_s]
    exact writeSPair_writesPair ..

/-- A fold over the indices below `n` goes through a sequence that each of its steps follows. -/
theorem foldl_finRange_of_step {α : Type} {n : Nat} {f : α → Fin n → α} {a : Nat → α}
    (h : ∀ i : Fin n, f (a i.val) i = a (i.val + 1)) : (List.finRange n).foldl f (a 0) = a n := by
  induction n with
  | zero => rfl
  | succ n ih =>
    rw [List.finRange_succ_last, List.foldl_append, List.foldl_map, ih fun i => h i.castSucc]
    exact h (Fin.last n)

/-- The bootstrap pass is its 521 steps. -/
theorem bootstrap_eq (st : BootState) : bootstrap st = bootstrapAfter st 521 := by
  have hp : (List.finRange 9).foldl bootstrapPStep st = bootstrapAfter st 9 :=
    foldl_finRange_of_step (a := bootstrapAfter st) fun i => (bootstrapStep_p _ i).symm
  have htable (b : Fin 4) : (List.finRange 128).foldl (bootstrapSStep b) (bootstrapAfter st (9 + 128 * b.val)) =
      bootstrapAfter st (9 + 128 * (b.val + 1)) :=
    foldl_finRange_of_step (a := fun j => bootstrapAfter st (9 + 128 * b.val + j)) fun j => (bootstrapStep_s _ b j).symm
  rw [bootstrap, hp]
  exact foldl_finRange_of_step (a := fun b => bootstrapAfter st (9 + 128 * b)) htable

/-- Where the bootstrap pass of a key starts: the mixed tables, and the running block (0, 0) (R122, R123). -/
def bootstrapStart (key : List Byte) : BootState := ⟨mixKey (expandKey key) initialTables, ⟨0, 0⟩⟩

theorem derive_eq (key : List Byte) : derive key = (bootstrapAfter (bootstrapStart key) 521).keys :=
  congrArg BootState.keys (bootstrap_eq (bootstrapStart key))

end Sys2Proof.Machine

section
open Sys2Proof Sys2Proof.Machine

/-- Settles O28: the pass is 521 uniform steps (`bootstrap_eq`), and each writes the pair of its index. -/
theorem bootstrapPassIsAStrictSequence : Obligations.BootstrapPassIsAStrictSequence := by
  refine fun key => ⟨fun t => (bootstrapAfter (bootstrapStart key) t).keys, fun t => (bootstrapAfter (bootstrapStart key) t).run,
    rfl, rfl, fun t ht => ⟨?_, ?_⟩, derive_eq key⟩
  · exact bootstrapStep_run ..
  · exact bootstrapStep_writesPair ht _

/-- Settles O26: every index below 72 is read as R120 says, and a long key's are below its length. -/
theorem keyExpansionRepeatsAndCutsTheKey : Obligations.KeyExpansionRepeatsAndCutsTheKey :=
  fun key hkey => ⟨expandKey_length key, fun _ => expandKey_getElem?_of_ne_nil hkey, expandKey_eq_take⟩

/-- Settles O29: the tables depend on the expansion alone, which repetitions and bytes from the 73rd on leave as it is, and which another byte
after a short key changes. -/
theorem keysOfEqualExpansionAreEquivalent : Obligations.KeysOfEqualExpansionAreEquivalent := by
  refine ⟨fun _ _ => derive_congr, fun _ _ hkey hm => derive_congr (expandKey_flatten_replicate hkey hm), fun _ extra hlen => ?_,
    fun key hkey hlen => ?_⟩
  · exact ⟨derive_congr (expandKey_take hlen).symm, derive_congr (expandKey_append hlen extra)⟩
  · cases key with
    | nil => exact absurd rfl hkey
    | cons first rest => exact ⟨[first + 1], expandKey_append_singleton_ne hlen (by simp)⟩

/-- Settles O27: P is mixed word by word, and S is not written. -/
theorem keyMixingXorsBigEndianWords : Obligations.KeyMixingXorsBigEndianWords :=
  fun expanded k => ⟨mixKey_p_get expanded k, rfl⟩

/-- Settles O30: a non-empty key passes INIT's only check. -/
theorem initDerivesAndLatches : Obligations.InitDerivesAndLatches :=
  fun mode scheme _ s => ⟨fun hkey => execInit_of_ne_nil mode scheme hkey s, rfl⟩

end

/-!
SUPPORT. Proofs of the statements about the round function (41_round_function.md): F_EVAL answers F of its four bytes (R140, R144), and the
commands with an exact payload length report any other (R144, R154, R155; 45_facade.md R220). What later proofs can use:
`roundFunction_append4`, `execFEval_of_keyed` and `requireLength_fails_of_keyed`.
-/

namespace Sys2Proof.Machine

/-! ### F on the four bytes of a word (R140, R141) -/

/-- The four indices of F are the bytes that the word is put together from, most significant first. -/
theorem roundFunction_append4 (k : Schedule) (a b c d : Byte) :
    roundFunction k (a ++ b ++ c ++ d) =
      ((sboxWord k 0 a + sboxWord k 1 b) ^^^ sboxWord k 2 c) + sboxWord k 3 d := by
  have hbytes := bytes32_append4 a b c d
  simp only [bytes32, List.cons.injEq, and_true] at hbytes
  obtain ⟨ha, hb, hc, hd⟩ := hbytes
  rw [roundFunction, ha, hb, hc, hd]

/-! ### Commands with an exact payload length -/

theorem execFEval_of_keyed {data : List Byte} {s : State} (hkeyed : s.keyed = true) (hlen : data.length = 4) :
    execFEval data s = succeed (bytes32 (roundFunction s.keys (wordOperand data))) s :=
  (requireKeyed_of_keyed hkeyed).trans (requireLength_of_eq hlen)

/-- A keyed block reports a wrong payload length, whatever the command would have done. -/
theorem requireLength_fails_of_keyed {n : Nat} {status : Status} {payload : List Byte} {s : State} {go : Result}
    (hkeyed : s.keyed = true) (hlen : payload.length ≠ n) :
    requireKeyed s (requireLength n status payload s go) = raise status s :=
  (requireKeyed_of_keyed hkeyed).trans (requireLength_of_ne hlen)

end Sys2Proof.Machine

section
open Sys2Proof Sys2Proof.Machine

/-- Settles O31: the word operand is the four payload bytes in order, and F reads its indices back from it. -/
theorem fEvalComputesTheRoundFunction : Obligations.FEvalComputesTheRoundFunction := by
  intro s a b c d hkeyed
  have hexec : exec (.fEval [a, b, c, d]) s = succeed (bytes32 (roundFunction s.keys (a ++ b ++ c ++ d))) s :=
    execFEval_of_keyed hkeyed rfl
  rw [hexec, roundFunction_append4]
  rfl

/-- Settles O37: in all four commands the length check comes right after the KEYED check. -/
theorem wrongPayloadLengthsAreReported : Obligations.WrongPayloadLengthsAreReported :=
  fun _ _ hkeyed => ⟨requireLength_fails_of_keyed hkeyed, fun hlen =>
    ⟨requireLength_fails_of_keyed hkeyed hlen, requireLength_fails_of_keyed hkeyed hlen, requireLength_fails_of_keyed hkeyed hlen⟩⟩

end

/-!
SUPPORT. Proofs of the statements about the block transform (42_block_transform.md): E and D round by round (R150, R151), the inverse law (R152),
and the commands ENC_BLOCK and DEC_BLOCK (R154, R155). What later proofs can use: `decryptBlock_encryptBlock`, `encryptBlock_decryptBlock`,
`blockBytes_blockOperand`, `blockOperand_blockBytes`, `ecbEncrypt_eight`, and the commands on a keyed block, `execEncBlock_of_keyed`,
`execDecBlock_of_keyed` and `execEcbEnc_of_keyed`.
-/

namespace Sys2Proof.Machine

/-! ### The block after each round (R150, R151) -/

/-- The half-pair once the first `n` of the rounds are done. -/
def afterRounds (k : Schedule) (rounds : List (Fin 18)) (b : Block) (n : Nat) : Block :=
  (rounds.take n).foldl (feistelRound k) b

theorem afterRounds_succ (k : Schedule) {rounds : List (Fin 18)} (b : Block) {n : Nat} {i : Fin 18} (h : rounds[n]? = some i) :
    afterRounds k rounds b (n + 1) = feistelRound k (afterRounds k rounds b n) i := by
  rw [afterRounds, List.take_add_one, h, Option.toList_some, List.foldl_append]
  rfl

theorem encryptRounds_getElem? (i : Fin 16) : encryptRounds[i.val]? = some (i.castLE (Nat.le_add_right 16 2)) := by
  decide +revert

theorem decryptRounds_eq_map_rev : decryptRounds = encryptRounds.map Fin.rev := by decide

/-! ### D undoes E and E undoes D (R152) -/

/-- The rounds and the closing step as one pass over all the subkeys in their order of use, of which `a` and `c` come next and `rest` after them.
Read backwards, the same subkeys undo it. -/
def network (k : Schedule) (a c : Fin 18) : List (Fin 18) → Block → Block
  | [], b => whiten k a c b
  | i :: rest, b => network k c i rest (feistelRound k b a)

theorem encryptBlock_eq_network (k : Schedule) (b : Block) : encryptBlock k b = network k 0 1 decryptRounds.reverse b := rfl

theorem decryptBlock_eq_network (k : Schedule) (b : Block) : decryptBlock k b = network k 17 16 encryptRounds.reverse b := rfl

/-- Rounds with the subkeys of a pass in reverse lead back to its start, up to the closing step with its first two subkeys. -/
theorem foldl_reverse_network (k : Schedule) (a c : Fin 18) (rest : List (Fin 18)) (b : Block) :
    rest.reverse.foldl (feistelRound k) (network k a c rest b) = whiten k a c b := by
  induction rest generalizing a c b with
  | nil => rfl
  | cons i rest ih =>
    rw [List.reverse_cons, List.foldl_append, network, ih]
    exact feistelRound_whiten ..

theorem decryptBlock_encryptBlock (k : Schedule) (b : Block) : decryptBlock k (encryptBlock k b) = b := by
  have hrounds : decryptRounds.foldl (feistelRound k) (encryptBlock k b) = whiten k 0 1 b :=
    foldl_reverse_network k 0 1 decryptRounds.reverse b
  rw [decryptBlock, hrounds, whiten_whiten]

theorem encryptBlock_decryptBlock (k : Schedule) (b : Block) : encryptBlock k (decryptBlock k b) = b := by
  have hrounds : encryptRounds.foldl (feistelRound k) (decryptBlock k b) = whiten k 17 16 b :=
    foldl_reverse_network k 17 16 encryptRounds.reverse b
  rw [encryptBlock, hrounds, whiten_whiten]

/-! ### D is E with the subkeys reversed (R152) -/

/-- The tables with the subkey array read from its end. -/
def reverseSubkeys (k : Schedule) : Schedule := { k with p := Vector.ofFn fun i => k.p.get i.rev }

theorem subkey_reverseSubkeys (k : Schedule) (i : Fin 18) : subkey (reverseSubkeys k) i = subkey k i.rev :=
  Vector.get_ofFn ..

/-- F does not read P. -/
theorem roundFunction_with_p (k : Schedule) (p : Vector Word 18) (x : Word) :
    roundFunction { k with p := p } x = roundFunction k x := rfl

theorem roundFunction_reverseSubkeys (k : Schedule) (x : Word) : roundFunction (reverseSubkeys k) x = roundFunction k x :=
  roundFunction_with_p k _ x

theorem feistelRound_reverseSubkeys (k : Schedule) (b : Block) (i : Fin 18) :
    feistelRound (reverseSubkeys k) b i = feistelRound k b i.rev := by
  simp only [feistelRound, subkey_reverseSubkeys, roundFunction_reverseSubkeys]

theorem whiten_reverseSubkeys (k : Schedule) (r l : Fin 18) (b : Block) :
    whiten (reverseSubkeys k) r l b = whiten k r.rev l.rev b := by
  simp only [whiten, subkey_reverseSubkeys]

theorem encryptBlock_reverseSubkeys (k : Schedule) (b : Block) : encryptBlock (reverseSubkeys k) b = decryptBlock k b := by
  have hround : feistelRound (reverseSubkeys k) = fun b i => feistelRound k b i.rev :=
    funext₂ (feistelRound_reverseSubkeys k)
  rw [encryptBlock, whiten_reverseSubkeys, hround, decryptBlock, decryptRounds_eq_map_rev, List.foldl_map]
  rfl

/-! ### A payload of one block (R59, R60, R200) -/

/-- Eight bytes are one block of the drivers, and it is the block operand. -/
theorem splitBlocks_eight {data : List Byte} (hlen : data.length = 8) : splitBlocks data = [blockOperand data] := by
  match data, hlen with
  | [_, _, _, _, _, _, _, _], _ => rfl

theorem blockBytes_blockOperand {data : List Byte} (hlen : data.length = 8) : blockBytes (blockOperand data) = data := by
  have hjoin := joinBlocks_splitBlocks (s := data) (by omega)
  rwa [splitBlocks_eight hlen, joinBlocks_cons, joinBlocks_nil, List.append_nil] at hjoin

theorem blockOperand_blockBytes (b : Block) : blockOperand (blockBytes b) = b :=
  joinBlocks_blockAt (bs := [b]) (n := 0) rfl

theorem ecbEncrypt_eight (k : Schedule) {data : List Byte} (hlen : data.length = 8) :
    ecbEncrypt k data = blockBytes (encryptBlock k (blockOperand data)) := by
  rw [ecbEncrypt, splitBlocks_eight hlen, List.map_singleton, joinBlocks_cons, joinBlocks_nil, List.append_nil]

/-! ### The commands on a keyed block (R154, R155; 44_chaining.md R208) -/

theorem execEncBlock_of_keyed {data : List Byte} {s : State} (hkeyed : s.keyed = true) (hlen : data.length = 8) :
    execEncBlock data s = succeed (blockBytes (encryptBlock s.keys (blockOperand data))) s :=
  (requireKeyed_of_keyed hkeyed).trans (requireLength_of_eq hlen)

theorem execDecBlock_of_keyed {data : List Byte} {s : State} (hkeyed : s.keyed = true) (hlen : data.length = 8) :
    execDecBlock data s = succeed (blockBytes (decryptBlock s.keys (blockOperand data))) s :=
  (requireKeyed_of_keyed hkeyed).trans (requireLength_of_eq hlen)

theorem execEcbEnc_of_keyed {data : List Byte} {s : State} (hkeyed : s.keyed = true) (haligned : data.length % 8 = 0) :
    execEcbEnc data s = succeed (ecbEncrypt s.keys data) s :=
  (requireKeyed_of_keyed hkeyed).trans (requireAligned_of_aligned haligned)

/-- ECB_ENC of one block is ENC_BLOCK. -/
theorem execEcbEnc_eight {data : List Byte} {s : State} (hkeyed : s.keyed = true) (hlen : data.length = 8) :
    execEcbEnc data s = execEncBlock data s := by
  rw [execEcbEnc_of_keyed hkeyed (by omega), execEncBlock_of_keyed hkeyed hlen, ecbEncrypt_eight _ hlen]

/-- DEC_BLOCK of E's output bytes gives the payload back (R152). -/
theorem execDecBlock_blockBytes_encryptBlock {data : List Byte} {s : State} (hkeyed : s.keyed = true) (hlen : data.length = 8) :
    execDecBlock (blockBytes (encryptBlock s.keys (blockOperand data))) s = succeed data s := by
  rw [execDecBlock_of_keyed hkeyed (blockBytes_length _), blockOperand_blockBytes, decryptBlock_encryptBlock,
    blockBytes_blockOperand hlen]

end Sys2Proof.Machine

section
open Sys2Proof Sys2Proof.Machine

/-- Settles O32: the sequence is the block after each round of the fold, and round `i` uses subkey `i`. -/
theorem encryptBlockIsSixteenRounds : Obligations.EncryptBlockIsSixteenRounds :=
  fun k b => ⟨afterRounds k encryptRounds b, rfl, fun i => afterRounds_succ k b (encryptRounds_getElem? i), rfl⟩

/-- Settles O33: as for E, with the subkey indices counted from the end. -/
theorem decryptBlockIsSixteenRoundsDescending : Obligations.DecryptBlockIsSixteenRoundsDescending := by
  refine fun k b => ⟨afterRounds k decryptRounds b, rfl, fun i => afterRounds_succ k b ?_, rfl⟩
  rw [decryptRounds_eq_map_rev, List.getElem?_map, encryptRounds_getElem?, Option.map_some]

/-- Settles O34: read backwards, the subkeys of a pass undo it (`foldl_reverse_network`), and reversing P turns E's indices into D's. -/
theorem blockTransformsAreInverse : Obligations.BlockTransformsAreInverse :=
  fun k b => ⟨decryptBlock_encryptBlock k b, encryptBlock_decryptBlock k b, (encryptBlock_reverseSubkeys k b).symm⟩

/-- Settles O36: the one response of ENC_BLOCK carries E of the block, and the tables it leaves are those it used. -/
theorem decBlockUndoesEncBlock : Obligations.DecBlockUndoesEncBlock := by
  intro s t data r hkeyed hlen henc hout
  refine ⟨(execEcbEnc_eight hkeyed hlen).trans henc, ?_⟩
  obtain rfl := succeed_inv ((execEncBlock_of_keyed hkeyed hlen).symm.trans henc)
  obtain rfl := (emit_outbox_iff _ _ s).mp hout
  exact execDecBlock_blockBytes_encryptBlock hkeyed hlen

/-- Settles O35: a keyed block and 8 bytes pass both checks of the two commands. -/
theorem blockCommandsAnswerTheTransforms : Obligations.BlockCommandsAnswerTheTransforms :=
  fun _ _ hkeyed hlen => ⟨execEncBlock_of_keyed hkeyed hlen, execDecBlock_of_keyed hkeyed hlen⟩

end

/-!
SUPPORT. Proofs of the statements about the padding encoder and decoder, PAD and UNPAD (43_padding.md). What later proofs can use: `padBytes_inv`
and `unpadBytes_append_removed`, which say once what each of the two can answer, and for each scheme when its decoder leaves a sequence as it is.
-/

namespace Sys2Proof.Machine

/-! ### The encoders in their two cases (R170 to R174) -/

section
variable {s : List Byte}

theorem padOneAndZeros_of_aligned (h : alignedNonEmpty s = true) : padOneAndZeros s = s := if_pos h

theorem padLastByte_of_aligned (h : alignedNonEmpty s = true) : padLastByte s = s := if_pos h

theorem padSpaces_of_aligned (h : alignedNonEmpty s = true) : padSpaces s = s := if_pos h

theorem padOneAndZeros_of_not_aligned (h : ¬ alignedNonEmpty s = true) :
    padOneAndZeros s = s ++ [0x80] ++ List.replicate (padCount s.length - 1) 0x00 := if_neg h

theorem padLastByte_of_not_aligned (h : ¬ alignedNonEmpty s = true) :
    padLastByte s = s ++ List.replicate (padCount s.length - 1) 0x00 ++ [BitVec.ofNat 8 (padCount s.length)] := if_neg h

theorem padSpaces_of_not_aligned (h : ¬ alignedNonEmpty s = true) :
    padSpaces s = s ++ List.replicate (padCount s.length) 0x20 := if_neg h

/-- An empty or unaligned input is the other case of R172 to R174. -/
theorem not_alignedNonEmpty_of (h : s.length = 0 ∨ s.length % 8 ≠ 0) : ¬ alignedNonEmpty s = true := by
  rw [alignedNonEmpty_iff]
  omega

end

theorem padCount_sub_one (n : Nat) : padCount n - 1 = 7 - n % 8 := by
  unfold padCount
  omega

/-- An encoder appends nothing, which only None does to a sequence that is empty or unaligned, or it appends the pad count of bytes. -/
theorem padBytes_inv (σ : PadScheme) (s : List Byte) :
    ∃ added, padBytes σ s = s ++ added ∧
      (added = [] ∧ (σ = .none ∨ alignedNonEmpty s = true) ∨ σ ≠ .none ∧ added.length = padCount s.length) := by
  have hpos := padCount_pos s.length
  cases σ with
  | pkcs5 => exact ⟨_, rfl, .inr ⟨nofun, List.length_replicate⟩⟩
  | none => exact ⟨[], (List.append_nil s).symm, .inl ⟨rfl, .inl rfl⟩⟩
  | oneAndZeros =>
    by_cases ha : alignedNonEmpty s = true
    · exact ⟨[], (padOneAndZeros_of_aligned ha).trans (List.append_nil s).symm, .inl ⟨rfl, .inr ha⟩⟩
    · refine ⟨_, (padOneAndZeros_of_not_aligned ha).trans (List.append_assoc ..), .inr ⟨nofun, ?_⟩⟩
      simp [Nat.sub_add_cancel hpos]
  | lastByte =>
    by_cases ha : alignedNonEmpty s = true
    · exact ⟨[], (padLastByte_of_aligned ha).trans (List.append_nil s).symm, .inl ⟨rfl, .inr ha⟩⟩
    · refine ⟨_, (padLastByte_of_not_aligned ha).trans (List.append_assoc ..), .inr ⟨nofun, ?_⟩⟩
      simp [Nat.sub_add_cancel hpos]
  | spaces =>
    by_cases ha : alignedNonEmpty s = true
    · exact ⟨[], (padSpaces_of_aligned ha).trans (List.append_nil s).symm, .inl ⟨rfl, .inr ha⟩⟩
    · exact ⟨_, padSpaces_of_not_aligned ha, .inr ⟨nofun, List.length_replicate⟩⟩

theorem isPrefix_padBytes (σ : PadScheme) (s : List Byte) : s <+: padBytes σ s := by
  obtain ⟨added, hpad, -⟩ := padBytes_inv σ s
  exact ⟨added, hpad.symm⟩

theorem padBytes_length_aligned {σ : PadScheme} (hσ : σ ≠ .none) (s : List Byte) : (padBytes σ s).length % 8 = 0 := by
  obtain ⟨added, hpad, ⟨rfl, hnone | ha⟩ | ⟨-, hlen⟩⟩ := padBytes_inv σ s
  · exact absurd hnone hσ
  · rw [hpad, List.append_nil]
    exact ((alignedNonEmpty_iff s).mp ha).2
  · rw [hpad, List.length_append, hlen]
    exact padCount_total s.length

/-! ### The PKCS5 and LastByte decoders (R177, R178) -/

theorem unpadCounted_nil : unpadCounted [] = [] := rfl

theorem unpadCounted_concat (init : List Byte) (v : Byte) :
    unpadCounted (init ++ [v]) =
      if v.toNat ≤ 8 ∧ v.toNat ≤ init.length + 1 then (init ++ [v]).take (init.length + 1 - v.toNat) else init ++ [v] := by
  simp only [unpadCounted, List.getLast?_concat, List.length_append, List.length_singleton]

theorem unpadCounted_eq_take (s : List Byte) : ∃ k, k ≤ 8 ∧ unpadCounted s = s.take (s.length - k) := by
  rcases List.eq_nil_or_concat s with rfl | ⟨init, v, rfl⟩
  · exact ⟨0, Nat.zero_le 8, rfl⟩
  · rw [List.concat_eq_append, unpadCounted_concat]
    split
    next hv => exact ⟨v.toNat, hv.1, by simp⟩
    next => exact ⟨0, Nat.zero_le 8, by simp⟩

/-- A last byte that counts itself and the bytes `filler` before it is removed with them, whatever they are. -/
theorem unpadCounted_append_count (s filler : List Byte) {c : Nat} (hc : c ≤ 8) (hlen : filler.length + 1 = c) :
    unpadCounted (s ++ filler ++ [BitVec.ofNat 8 c]) = s := by
  have hv : (BitVec.ofNat 8 c).toNat = c := by
    rw [BitVec.toNat_ofNat]
    omega
  have htake : (s ++ filler).length + 1 - c = s.length := by
    rw [List.length_append]
    omega
  rw [unpadCounted_concat, hv, if_pos ⟨hc, by rw [List.length_append]; omega⟩, htake, List.append_assoc, List.take_left]

theorem unpadCounted_eq_self_iff (s : List Byte) :
    unpadCounted s = s ↔ ¬ ∃ v, s.getLast? = some v ∧ 1 ≤ v.toNat ∧ v.toNat ≤ 8 ∧ v.toNat ≤ s.length := by
  rcases List.eq_nil_or_concat s with rfl | ⟨init, v, rfl⟩
  · simp [unpadCounted_nil]
  · rw [List.concat_eq_append, unpadCounted_concat]
    simp only [List.getLast?_concat, Option.some.injEq, exists_eq_left', List.length_append, List.length_singleton]
    split
    next hv =>
      rw [List.take_eq_self_iff, List.length_append, List.length_singleton]
      omega
    next hv => exact iff_of_true rfl fun ⟨_, hcount⟩ => hv hcount

/-! ### The OneAndZeros decoder (R179) -/

/-- The sequence ends in a marker 0x80 and at most 7 zeros. -/
def EndsInMarker (s : List Byte) : Prop :=
  ∃ (u : List Byte) (z : Nat), z ≤ 7 ∧ s = u ++ [0x80] ++ List.replicate z 0x00

theorem markerScan_reverse_eq_some (s rest : List Byte) :
    markerScan 8 s.reverse = some rest ↔ ∃ z, z ≤ 7 ∧ s = rest.reverse ++ [0x80] ++ List.replicate z 0x00 := by
  simp only [markerScan_eq_some, List.reverse_eq_iff, List.reverse_append, List.reverse_cons, List.reverse_replicate,
    Nat.lt_succ_iff]

theorem unpadOneAndZeros_marker (u : List Byte) {z : Nat} (hz : z ≤ 7) :
    unpadOneAndZeros (u ++ [0x80] ++ List.replicate z 0x00) = u := by
  have hscan := (markerScan_reverse_eq_some _ u.reverse).mpr ⟨z, hz, by rw [List.reverse_reverse]⟩
  rw [unpadOneAndZeros, hscan]
  exact List.reverse_reverse u

theorem unpadOneAndZeros_of_no_marker {s : List Byte} (h : ¬ EndsInMarker s) : unpadOneAndZeros s = s := by
  unfold unpadOneAndZeros
  split
  next rest hscan => exact absurd ⟨rest.reverse, (markerScan_reverse_eq_some s rest).mp hscan⟩ h
  next => rfl

theorem unpadOneAndZeros_eq_self_iff (s : List Byte) : unpadOneAndZeros s = s ↔ ¬ EndsInMarker s := by
  refine ⟨?_, unpadOneAndZeros_of_no_marker⟩
  rintro hself ⟨u, z, hz, rfl⟩
  rw [unpadOneAndZeros_marker u hz] at hself
  have hlen := congrArg List.length hself
  simp at hlen

/-! ### The Spaces decoder (R180) -/

/-- The spaces scan takes a run of 0x20 bytes off its budget. -/
theorem dropSpaces_replicate_append (budget k : Nat) (s : List Byte) :
    dropSpaces (budget + k) (List.replicate k 0x20 ++ s) = dropSpaces budget s := by
  induction k with
  | zero => rfl
  | succ k ih => rw [← ih, List.replicate_succ, List.cons_append, ← Nat.add_assoc, dropSpaces, if_pos rfl]

theorem dropSpaces_eq_self_iff (budget : Nat) (s : List Byte) :
    dropSpaces budget s = s ↔ budget = 0 ∨ s.head? ≠ some 0x20 := by
  obtain ⟨k, -, hs, hend⟩ := dropSpaces_spec budget s
  constructor
  · intro hself
    have hk : k = 0 := by
      have hlen := congrArg List.length hs
      rw [hself, List.length_append, List.length_replicate] at hlen
      omega
    rw [hself, hk] at hend
    exact hend.imp_left Eq.symm
  · rintro (rfl | hhead)
    · rfl
    · cases k with
      | zero => exact hs.symm
      | succ k =>
        rw [hs] at hhead
        exact absurd rfl hhead

theorem unpadSpaces_spec (s : List Byte) :
    ∃ k, k ≤ 8 ∧ s = unpadSpaces s ++ List.replicate k 0x20 ∧ (k = 8 ∨ (unpadSpaces s).getLast? ≠ some 0x20) := by
  obtain ⟨k, hk, hs, hend⟩ := dropSpaces_spec 8 s.reverse
  refine ⟨k, hk, ?_, ?_⟩
  · rw [← List.reverse_inj, hs]
    simp [unpadSpaces]
  · rwa [unpadSpaces, List.getLast?_reverse]

/-- Behind `k` spaces at the end the decoder removes at most `8 - k` more. -/
theorem unpadSpaces_append_spaces_eq_iff (s : List Byte) {k : Nat} (hk : k ≤ 8) :
    unpadSpaces (s ++ List.replicate k 0x20) = s ↔ k = 8 ∨ s.getLast? ≠ some 0x20 := by
  have hdrop : dropSpaces 8 (s ++ List.replicate k 0x20).reverse = dropSpaces (8 - k) s.reverse := by
    have hrun := dropSpaces_replicate_append (8 - k) k s.reverse
    rwa [Nat.sub_add_cancel hk, ← List.reverse_replicate, ← List.reverse_append] at hrun
  rw [unpadSpaces, hdrop, List.reverse_eq_iff, dropSpaces_eq_self_iff, List.head?_reverse]
  exact or_congr_left (by omega)

theorem unpadSpaces_eq_self_iff (s : List Byte) : unpadSpaces s = s ↔ s.getLast? ≠ some 0x20 := by
  have hzero := unpadSpaces_append_spaces_eq_iff s (Nat.zero_le 8)
  rw [List.replicate_zero, List.append_nil] at hzero
  exact hzero.trans (or_iff_right (by decide))

/-! ### What a decoder removes (R182) -/

theorem unpadBytes_append_removed (σ : PadScheme) (s : List Byte) :
    ∃ removed, removed.length ≤ 8 ∧ unpadBytes σ s ++ removed = s := by
  cases σ with
  | pkcs5 | lastByte =>
    obtain ⟨k, hk, htake⟩ := unpadCounted_eq_take s
    refine ⟨s.drop (s.length - k), ?_, ?_⟩
    · rw [List.length_drop]
      omega
    · rw [unpadBytes, htake, List.take_append_drop]
  | oneAndZeros =>
    by_cases h : EndsInMarker s
    · obtain ⟨u, z, hz, rfl⟩ := h
      refine ⟨[0x80] ++ List.replicate z 0x00, by simpa using Nat.lt_succ_of_le hz, ?_⟩
      rw [unpadBytes, unpadOneAndZeros_marker u hz, List.append_assoc]
    · exact ⟨[], Nat.zero_le 8, (List.append_nil _).trans (unpadOneAndZeros_of_no_marker h)⟩
  | none => exact ⟨[], Nat.zero_le 8, List.append_nil s⟩
  | spaces =>
    obtain ⟨k, hk, hs, -⟩ := unpadSpaces_spec s
    exact ⟨List.replicate k 0x20, by rwa [List.length_replicate], hs.symm⟩

/-! ### The round trip, scheme by scheme (R183) -/

theorem unpadCounted_padPkcs5 (p : List Byte) : unpadCounted (padPkcs5 p) = p := by
  have hpos := padCount_pos p.length
  obtain ⟨m, hm⟩ : ∃ m, padCount p.length = m + 1 := ⟨padCount p.length - 1, by omega⟩
  have hle := padCount_le p.length
  rw [hm] at hle
  rw [padPkcs5, hm, List.replicate_succ', ← List.append_assoc]
  exact unpadCounted_append_count p _ hle (by rw [List.length_replicate])

theorem unpadOneAndZeros_padOneAndZeros_eq_iff (p : List Byte) :
    unpadOneAndZeros (padOneAndZeros p) = p ↔ ¬ (alignedNonEmpty p = true ∧ EndsInMarker p) := by
  by_cases ha : alignedNonEmpty p = true
  · rw [padOneAndZeros_of_aligned ha, unpadOneAndZeros_eq_self_iff, and_iff_right ha]
  · have hz : padCount p.length - 1 ≤ 7 := by
      rw [padCount_sub_one]
      omega
    rw [padOneAndZeros_of_not_aligned ha]
    exact iff_of_true (unpadOneAndZeros_marker p hz) fun h => ha h.1

theorem unpadCounted_padLastByte_eq_iff (p : List Byte) :
    unpadCounted (padLastByte p) = p ↔
      ¬ (alignedNonEmpty p = true ∧ ∃ v, p.getLast? = some v ∧ 1 ≤ v.toNat ∧ v.toNat ≤ 8) := by
  by_cases ha : alignedNonEmpty p = true
  · obtain ⟨hpos, hmod⟩ := (alignedNonEmpty_iff p).mp ha
    have hlen : 8 ≤ p.length := by omega
    rw [padLastByte_of_aligned ha, unpadCounted_eq_self_iff, and_iff_right ha]
    refine not_congr (exists_congr fun v => and_congr_right fun _ => and_congr_right fun _ => and_iff_left_of_imp ?_)
    exact fun hv => hv.trans hlen
  · rw [padLastByte_of_not_aligned ha]
    refine iff_of_true (unpadCounted_append_count p _ (padCount_le _) ?_) fun h => ha h.1
    rw [List.length_replicate, Nat.sub_add_cancel (padCount_pos _)]

theorem unpadSpaces_padSpaces_eq_iff (p : List Byte) :
    unpadSpaces (padSpaces p) = p ↔ p.length = 0 ∨ p.getLast? ≠ some 0x20 := by
  by_cases ha : alignedNonEmpty p = true
  · have hne : p.length ≠ 0 := Nat.ne_of_gt ((alignedNonEmpty_iff p).mp ha).1
    rw [padSpaces_of_aligned ha, unpadSpaces_eq_self_iff, or_iff_right hne]
  · have hfull : padCount p.length = 8 ↔ p.length = 0 := by
      rw [alignedNonEmpty_iff] at ha
      unfold padCount
      omega
    rw [padSpaces_of_not_aligned ha, unpadSpaces_append_spaces_eq_iff p (padCount_le _), hfull]

end Sys2Proof.Machine

section
open Sys2Proof Sys2Proof.Machine

/-- Settles O39: an encoder appends nothing or the pad count of bytes (`padBytes_inv`). -/
theorem paddingEncoderLaws : Obligations.PaddingEncoderLaws := by
  refine fun σ s => ⟨(isPrefix_padBytes σ s).length_le, padBytes_length_le σ s, fun hσ => padBytes_length_aligned hσ s, ?_,
    isPrefix_padBytes σ s, ?_⟩
  · rintro rfl
    rfl
  · cases σ <;> rfl

/-- Settles O40: both schemes have the decoder that reads the last byte as a count. -/
theorem countedDecoders : Obligations.CountedDecoders := by
  rintro σ (rfl | rfl) <;> exact ⟨unpadCounted_nil, unpadCounted_concat⟩

/-- Settles O41: the backward scan finds exactly a marker behind at most 7 zeros. -/
theorem oneAndZerosDecoder : Obligations.OneAndZerosDecoder :=
  ⟨fun u _ hz => unpadOneAndZeros_marker u hz, fun _ => unpadOneAndZeros_of_no_marker⟩

/-- Settles O42, by what the backward scan drops from the reversed sequence. -/
theorem spacesDecoder : Obligations.SpacesDecoder := unpadSpaces_spec

/-- Settles O43: what a decoder removes is at the end and at most 8 bytes (`unpadBytes_append_removed`). -/
theorem decoderAnswersAPrefix : Obligations.DecoderAnswersAPrefix := by
  intro σ s
  obtain ⟨removed, hlen, hs⟩ := unpadBytes_append_removed σ s
  refine ⟨⟨removed, hs⟩, ?_, rfl⟩
  have htotal := congrArg List.length hs
  rw [List.length_append] at htotal
  omega

/-- Settles O44: an aligned non-empty input is padded by PKCS5 only, so under the others the decoder must leave it as it is; the bytes added to any
other input are what the decoder removes, except that Spaces goes on into the input's own spaces. -/
theorem paddingRoundTripsExactlyWhen : Obligations.PaddingRoundTripsExactlyWhen := by
  intro p
  have hoaz := unpadOneAndZeros_padOneAndZeros_eq_iff p
  have hlast := unpadCounted_padLastByte_eq_iff p
  rw [alignedNonEmpty_iff, and_assoc] at hoaz hlast
  exact ⟨unpadCounted_padPkcs5 p, rfl, hoaz, hlast, unpadSpaces_padSpaces_eq_iff p⟩

/-- Settles O38: the two cases of the three encoders that leave an aligned non-empty input are the two of `alignedNonEmpty`. -/
theorem paddingEncoders : Obligations.PaddingEncoders := by
  refine fun s => ⟨rfl, rfl, fun ⟨hne, hmod⟩ => ?_, fun h => ?_⟩
  · have ha := (alignedNonEmpty_iff s).mpr ⟨Nat.pos_of_ne_zero hne, hmod⟩
    exact ⟨padOneAndZeros_of_aligned ha, padLastByte_of_aligned ha, padSpaces_of_aligned ha⟩
  · have ha := not_alignedNonEmpty_of h
    rw [← padCount_sub_one]
    exact ⟨padOneAndZeros_of_not_aligned ha, padLastByte_of_not_aligned ha, padSpaces_of_not_aligned ha⟩

/-- Settles O45: the two commands make no check. -/
theorem padAndUnpadNeedNoKey : Obligations.PadAndUnpadNeedNoKey :=
  fun σ data s => ⟨succeed_eq (padBytes σ data) s, succeed_eq (unpadBytes σ data) s⟩

end

/-!
SUPPORT. Proofs of the statements about the ECB and CBC drivers and their commands (44_chaining.md). What later proofs can use: each block of a
driver's output in terms of the input's blocks (`blockAt_ecbEncrypt` to `blockAt_cbcDecrypt_succ`), `ecbDecrypt_ecbEncrypt`,
`cbcDecrypt_cbcEncrypt`, and the commands on a keyed block, `execEcbDec_of_keyed`, `execCbcEnc_of_keyed` and `execCbcDec_of_keyed`.
-/

namespace Sys2Proof.Machine

/-! ### The blocks of a driver's output (R200, R202 to R205) -/

section
variable {s : List Byte} (haligned : s.length % 8 = 0)
include haligned

theorem splitBlocks_getElem?_blockAt {n : Nat} (hn : 8 * n < s.length) : (splitBlocks s)[n]? = some (blockAt s n) :=
  splitBlocks_getElem? haligned hn

/-- A driver that transforms every block on its own. -/
theorem blockAt_joinBlocks_map (f : Block → Block) {n : Nat} (hn : 8 * n < s.length) :
    blockAt (joinBlocks ((splitBlocks s).map f)) n = f (blockAt s n) := by
  apply joinBlocks_blockAt
  rw [List.getElem?_map, splitBlocks_getElem?_blockAt haligned hn, Option.map_some]

theorem blockAt_ecbEncrypt (k : Schedule) {n : Nat} (hn : 8 * n < s.length) :
    blockAt (ecbEncrypt k s) n = encryptBlock k (blockAt s n) :=
  blockAt_joinBlocks_map haligned (encryptBlock k) hn

theorem blockAt_ecbDecrypt (k : Schedule) {n : Nat} (hn : 8 * n < s.length) :
    blockAt (ecbDecrypt k s) n = decryptBlock k (blockAt s n) :=
  blockAt_joinBlocks_map haligned (decryptBlock k) hn

theorem blockAt_cbcEncrypt_zero (k : Schedule) (iv : Block) (hpos : 0 < s.length) :
    blockAt (cbcEncrypt k iv s) 0 = encryptBlock k (xorBlock (blockAt s 0) iv) :=
  joinBlocks_blockAt (cbcEncBlocks_zero k iv _ _ (splitBlocks_getElem?_blockAt haligned hpos))

theorem cbcEncBlocks_getElem?_blockAt (k : Schedule) (iv : Block) {n : Nat} (hn : 8 * n < s.length) :
    (cbcEncBlocks k iv (splitBlocks s))[n]? = some (blockAt (cbcEncrypt k iv s) n) := by
  have hlen := cbcEncrypt_length k iv haligned
  have hout := splitBlocks_getElem?_blockAt (hlen ▸ haligned) (hlen.symm ▸ hn)
  rwa [cbcEncrypt, splitBlocks_joinBlocks] at hout

theorem blockAt_cbcEncrypt_succ (k : Schedule) (iv : Block) {n : Nat} (hn : 8 * (n + 1) < s.length) :
    blockAt (cbcEncrypt k iv s) (n + 1) = encryptBlock k (xorBlock (blockAt s (n + 1)) (blockAt (cbcEncrypt k iv s) n)) :=
  joinBlocks_blockAt (cbcEncBlocks_succ k iv _ n _ _ (splitBlocks_getElem?_blockAt haligned hn)
    (cbcEncBlocks_getElem?_blockAt haligned k iv (by omega)))

theorem blockAt_cbcDecrypt_zero (k : Schedule) (iv : Block) (hpos : 0 < s.length) :
    blockAt (cbcDecrypt k iv s) 0 = xorBlock (decryptBlock k (blockAt s 0)) iv :=
  joinBlocks_blockAt (cbcDecBlocks_zero k iv _ _ (splitBlocks_getElem?_blockAt haligned hpos))

theorem blockAt_cbcDecrypt_succ (k : Schedule) (iv : Block) {n : Nat} (hn : 8 * (n + 1) < s.length) :
    blockAt (cbcDecrypt k iv s) (n + 1) = xorBlock (decryptBlock k (blockAt s (n + 1))) (blockAt s n) :=
  joinBlocks_blockAt (cbcDecBlocks_succ k iv _ n _ _ (splitBlocks_getElem?_blockAt haligned (by omega))
    (splitBlocks_getElem?_blockAt haligned hn))

/-! ### The laws of the drivers (R207) -/

theorem ecbDecrypt_ecbEncrypt (k : Schedule) : ecbDecrypt k (ecbEncrypt k s) = s := by
  have hinv : decryptBlock k ∘ encryptBlock k = id := funext (decryptBlock_encryptBlock k)
  rw [ecbDecrypt, ecbEncrypt, splitBlocks_joinBlocks, List.map_map, hinv, List.map_id, joinBlocks_splitBlocks haligned]

omit haligned in
/-- Both loops carry the same chaining register, the ciphertext block before. -/
theorem cbcDecBlocks_cbcEncBlocks (k : Schedule) (prev : Block) (bs : List Block) :
    cbcDecBlocks k prev (cbcEncBlocks k prev bs) = bs := by
  induction bs generalizing prev with
  | nil => rfl
  | cons b bs ih => rw [cbcEncBlocks, cbcDecBlocks, decryptBlock_encryptBlock, xorBlock_cancel, ih]

theorem cbcDecrypt_cbcEncrypt (k : Schedule) (iv : Block) : cbcDecrypt k iv (cbcEncrypt k iv s) = s := by
  rw [cbcDecrypt, cbcEncrypt, splitBlocks_joinBlocks, cbcDecBlocks_cbcEncBlocks, joinBlocks_splitBlocks haligned]

theorem blockAt_cbcEncrypt_zeroIv (k : Schedule) (hpos : 0 < s.length) :
    blockAt (cbcEncrypt k ⟨0, 0⟩ s) 0 = blockAt (ecbEncrypt k s) 0 := by
  rw [blockAt_cbcEncrypt_zero haligned k _ hpos, xorBlock_zero, blockAt_ecbEncrypt haligned k hpos]

theorem blockAt_cbcDecrypt_xorIv (k : Schedule) (iv δ : Block) (hpos : 0 < s.length) :
    blockAt (cbcDecrypt k (xorBlock iv δ) s) 0 = xorBlock (blockAt (cbcDecrypt k iv s) 0) δ := by
  rw [blockAt_cbcDecrypt_zero haligned k _ hpos, blockAt_cbcDecrypt_zero haligned k _ hpos, xorBlock_assoc]

omit haligned in
/-- After its first block, cbc_dec no longer depends on the IV. -/
theorem cbcDecrypt_drop_eight (k : Schedule) (iv iv' : Block) (s : List Byte) :
    (cbcDecrypt k iv s).drop 8 = (cbcDecrypt k iv' s).drop 8 := by
  unfold cbcDecrypt
  cases splitBlocks s with
  | nil => rfl
  | cons c cs =>
    rw [cbcDecBlocks, cbcDecBlocks, joinBlocks_cons, joinBlocks_cons, List.drop_left' (blockBytes_length _),
      List.drop_left' (blockBytes_length _)]

/-- Output block `n` of cbc_dec depends only on the input's block `n` and, if there is one, the block before it. -/
theorem blockAt_cbcDecrypt_congr (k : Schedule) (iv : Block) {s' : List Byte} (hlen : s'.length = s.length) {n : Nat}
    (hn : 8 * n < s.length) (hcur : blockAt s' n = blockAt s n) (hprev : ∀ m, m + 1 = n → blockAt s' m = blockAt s m) :
    blockAt (cbcDecrypt k iv s') n = blockAt (cbcDecrypt k iv s) n := by
  have haligned' : s'.length % 8 = 0 := hlen ▸ haligned
  cases n with
  | zero => rw [blockAt_cbcDecrypt_zero haligned' k iv (hlen ▸ hn), blockAt_cbcDecrypt_zero haligned k iv hn, hcur]
  | succ n =>
    rw [blockAt_cbcDecrypt_succ haligned' k iv (hlen ▸ hn), blockAt_cbcDecrypt_succ haligned k iv hn, hcur, hprev n rfl]

end

/-! ### The commands on a keyed block (R208 to R211) -/

section
variable {data : List Byte} {s : State} (hkeyed : s.keyed = true)
include hkeyed

theorem execEcbDec_of_keyed (haligned : data.length % 8 = 0) : execEcbDec data s = succeed (ecbDecrypt s.keys data) s :=
  (requireKeyed_of_keyed hkeyed).trans (requireAligned_of_aligned haligned)

theorem execCbcEnc_of_keyed (hiv : s.ivValid = true) (haligned : data.length % 8 = 0) :
    execCbcEnc data s = succeed (cbcEncrypt s.keys (ivBlock s) data) s :=
  (requireKeyed_of_keyed hkeyed).trans ((requireIv_of_valid hiv).trans (requireAligned_of_aligned haligned))

theorem execCbcDec_of_keyed (hiv : s.ivValid = true) (haligned : data.length % 8 = 0) :
    execCbcDec data s = succeed (cbcDecrypt s.keys (ivBlock s) data) s :=
  (requireKeyed_of_keyed hkeyed).trans ((requireAligned_of_aligned haligned).trans (requireIv_of_valid hiv))

/-- Where the alignment check comes right after the KEYED check, a keyed block reports a misaligned payload, whatever the command would have
done. -/
theorem requireAligned_fails_of_keyed {go : Result} (hmis : data.length % 8 ≠ 0) :
    requireKeyed s (requireAligned data s go) = raise .misalignedInput s :=
  (requireKeyed_of_keyed hkeyed).trans (requireAligned_of_misaligned hmis)

theorem execCbcEnc_misaligned (hiv : s.ivValid = true) (hmis : data.length % 8 ≠ 0) :
    execCbcEnc data s = raise .misalignedInput s :=
  (requireKeyed_of_keyed hkeyed).trans ((requireIv_of_valid hiv).trans (requireAligned_of_misaligned hmis))

theorem execCbcEnc_ivNotSet (hiv : s.ivValid = false) : execCbcEnc data s = raise .ivNotSet s :=
  (requireKeyed_of_keyed hkeyed).trans (requireIv_of_invalid hiv)

theorem execCbcDec_ivNotSet (hiv : s.ivValid = false) (haligned : data.length % 8 = 0) :
    execCbcDec data s = raise .ivNotSet s :=
  (requireKeyed_of_keyed hkeyed).trans ((requireAligned_of_aligned haligned).trans (requireIv_of_invalid hiv))

end

end Sys2Proof.Machine

section
open Sys2Proof Sys2Proof.Machine

/-- Settles O46: both drivers map a transform over the blocks (`blockAt_joinBlocks_map`). -/
theorem ecbCommandsTransformEachBlock : Obligations.EcbCommandsTransformEachBlock :=
  fun s _ hkeyed haligned =>
    ⟨⟨_, execEcbEnc_of_keyed hkeyed haligned, ecbEncrypt_length _ haligned, fun _ => blockAt_ecbEncrypt haligned s.keys⟩,
      ⟨_, execEcbDec_of_keyed hkeyed haligned, ecbDecrypt_length _ haligned, fun _ => blockAt_ecbDecrypt haligned s.keys⟩⟩

/-- Settles O47: the chaining register starts as the IV and then holds the output block before. -/
theorem cbcEncChainsOnTheCiphertext : Obligations.CbcEncChainsOnTheCiphertext :=
  fun s _ hkeyed hiv haligned =>
    ⟨_, execCbcEnc_of_keyed hkeyed hiv haligned, cbcEncrypt_length _ _ haligned,
      blockAt_cbcEncrypt_zero haligned s.keys (ivBlock s), fun _ => blockAt_cbcEncrypt_succ haligned s.keys (ivBlock s)⟩

/-- Settles O48: the chaining register starts as the IV and then holds the input block before. -/
theorem cbcDecChainsOnTheInput : Obligations.CbcDecChainsOnTheInput :=
  fun s _ hkeyed hiv haligned =>
    ⟨_, execCbcDec_of_keyed hkeyed hiv haligned, cbcDecrypt_length _ _ haligned,
      blockAt_cbcDecrypt_zero haligned s.keys (ivBlock s), fun _ => blockAt_cbcDecrypt_succ haligned s.keys (ivBlock s)⟩

/-- Settles O49: ECB_ENC, ECB_DEC and CBC_DEC check the alignment right after KEYED, CBC_ENC checks the IV first. -/
theorem driverCommandsReportMisuse : Obligations.DriverCommandsReportMisuse :=
  fun _ _ hkeyed =>
    ⟨fun hmis =>
      ⟨requireAligned_fails_of_keyed hkeyed hmis, requireAligned_fails_of_keyed hkeyed hmis,
        requireAligned_fails_of_keyed hkeyed hmis, fun hiv => execCbcEnc_misaligned hkeyed hiv hmis⟩,
      fun hiv => ⟨execCbcEnc_ivNotSet hkeyed hiv, execCbcDec_ivNotSet hkeyed hiv⟩⟩

/-- Settles O50: (a) because D undoes E and both CBC loops carry the same chaining register, the rest because of what each output block depends on. -/
theorem driverLaws : Obligations.DriverLaws := by
  intro k iv s haligned
  refine ⟨ecbDecrypt_ecbEncrypt haligned k, cbcDecrypt_cbcEncrypt haligned k iv, ?equalBlocks,
    blockAt_cbcEncrypt_zeroIv haligned k,
    fun δ => ⟨blockAt_cbcDecrypt_xorIv haligned k iv δ, cbcDecrypt_drop_eight k _ iv s⟩, ?oneBlockChanged⟩
  case equalBlocks =>
    intro m n hm hn hmn
    rw [blockAt_ecbEncrypt haligned k hm, blockAt_ecbEncrypt haligned k hn, hmn]
  case oneBlockChanged =>
    intro s' j hlen hsame n hn hnj hnj1
    refine blockAt_cbcDecrypt_congr haligned k iv hlen hn (hsame n hn hnj) ?_
    rintro m rfl
    exact hsame m (by omega) (by omega)

end

/-!
SUPPORT. Proofs of the statements about the façade commands (45_facade.md): SET_IV, ENCODE and DECODE on a keyed block (R220 to R223), their round
trip (R224) and their misuse (R225). What later proofs can use: `execEncode_of_ready` and `execDecode_of_ready`; `execEncode_inv`, which says once
what ENCODE can answer; and `execDecode_encryptWithMode`, which undoes the encrypting driver.
-/

namespace Sys2Proof.Machine

/-! ### Padding and alignment, and the known types (R221; 30_encoding.md R87, R88) -/

/-- Only None leaves a sequence unaligned, and only one that already was. -/
theorem padBytes_misaligned_iff (σ : PadScheme) (data : List Byte) :
    (padBytes σ data).length % 8 ≠ 0 ↔ σ = .none ∧ data.length % 8 ≠ 0 := by
  by_cases hσ : σ = .none
  · subst hσ
    exact (and_iff_right rfl).symm
  · exact iff_of_false (not_not_intro (padBytes_length_aligned hσ data)) fun ⟨hnone, _⟩ => hσ hnone

theorem padBytes_length_aligned_of_ready {σ : PadScheme} {data : List Byte} (hpad : σ = .none → data.length % 8 = 0) :
    (padBytes σ data).length % 8 = 0 := by
  by_contra hmis
  obtain ⟨hσ, hdata⟩ := (padBytes_misaligned_iff σ data).mp hmis
  exact hdata (hpad hσ)

theorem typeKnown_of_bytes_or_text {c : TypeCode} (h : c = .bytes ∨ c = .text) : typeKnown c = true := by
  obtain rfl | rfl := h <;> rfl

/-- In either mode the decrypting driver undoes the encrypting one (44_chaining.md R207). -/
theorem decryptWithMode_encryptWithMode (s : State) {data : List Byte} (haligned : data.length % 8 = 0) :
    decryptWithMode s (encryptWithMode s data) = data := by
  unfold decryptWithMode encryptWithMode
  cases s.mode with
  | ecb => exact ecbDecrypt_ecbEncrypt haligned s.keys
  | cbc => exact cbcDecrypt_cbcEncrypt haligned s.keys (ivBlock s)

/-! ### The commands on a keyed block -/

section
variable {data : List Byte} {s : State} (hkeyed : s.keyed = true)
include hkeyed

/-- ENCODE behind the KEYED check: the IV is checked before the alignment of the padded input (R221). -/
theorem execEncode_of_keyed : execEncode data s = requireIvIfCbc s
    (requireAligned (padBytes s.padding data) s (succeed (encryptWithMode s (padBytes s.padding data)) s)) :=
  requireKeyed_of_keyed hkeyed

theorem execEncode_of_ready (hiv : s.mode = .cbc → s.ivValid = true) (hpad : s.padding = .none → data.length % 8 = 0) :
    execEncode data s = succeed (encryptWithMode s (padBytes s.padding data)) s := by
  rw [execEncode_of_keyed hkeyed, requireIvIfCbc_of_ready hiv, requireAligned_of_aligned (padBytes_length_aligned_of_ready hpad)]

theorem execEncode_ivNotSet (hmode : s.mode = .cbc) (hiv : s.ivValid = false) : execEncode data s = raise .ivNotSet s :=
  (execEncode_of_keyed hkeyed).trans (requireIvIfCbc_of_missing hmode hiv)

/-- ENCODE lacks an IV that its mode needs, or None leaves its input unaligned, or it answers the padded input encrypted. -/
theorem execEncode_inv {t : State} (h : execEncode data s = .next t) :
    (s.mode = .cbc ∧ s.ivValid = false) ∧ t = emit (errorResponse .ivNotSet) s ∨
      (s.padding = .none ∧ data.length % 8 ≠ 0) ∧ t = emit (errorResponse .misalignedInput) s ∨
      (s.mode = .cbc → s.ivValid = true) ∧ (padBytes s.padding data).length % 8 = 0 ∧
        t = emit (okResponse (encryptWithMode s (padBytes s.padding data))) s := by
  rw [execEncode_of_keyed hkeyed] at h
  obtain ⟨hiv, h⟩ | ⟨hmode, hiv, ht⟩ := requireIvIfCbc_inv h
  · obtain ⟨haligned, h⟩ | ⟨hmis, ht⟩ := requireAligned_inv h
    · exact .inr (.inr ⟨hiv, haligned, succeed_inv h⟩)
    · exact .inr (.inl ⟨(padBytes_misaligned_iff _ _).mp hmis, ht⟩)
  · exact .inl ⟨⟨hmode, hiv⟩, ht⟩

/-- DECODE behind the KEYED check and with a known ITYPE: the alignment is checked before the IV (R222). -/
theorem execDecode_of_known {itype : TypeCode} (hitype : itype = .bytes ∨ itype = .text) (rtype : TypeCode) :
    execDecode itype rtype data s = requireAligned data s (requireIvIfCbc s
      (if !typeKnown rtype then raise .unsupportedReturnType s
      else .next (emit ⟨.ok, rtype = .text, unpadBytes s.padding (decryptWithMode s data)⟩ s))) := by
  rw [execDecode, requireKeyed_of_keyed hkeyed, typeKnown_of_bytes_or_text hitype]
  rfl

theorem execDecode_of_ready {itype rtype : TypeCode} (hitype : itype = .bytes ∨ itype = .text)
    (hrtype : rtype = .bytes ∨ rtype = .text) (hiv : s.mode = .cbc → s.ivValid = true) (haligned : data.length % 8 = 0) :
    execDecode itype rtype data s =
      .next (emit ⟨.ok, rtype = .text, unpadBytes s.padding (decryptWithMode s data)⟩ s) := by
  rw [execDecode_of_known hkeyed hitype, requireAligned_of_aligned haligned, requireIvIfCbc_of_ready hiv,
    typeKnown_of_bytes_or_text hrtype]
  rfl

theorem execDecode_misaligned {itype : TypeCode} (hitype : itype = .bytes ∨ itype = .text) (rtype : TypeCode)
    (hmis : data.length % 8 ≠ 0) : execDecode itype rtype data s = raise .misalignedInput s :=
  (execDecode_of_known hkeyed hitype rtype).trans (requireAligned_of_misaligned hmis)

/-- DECODE of an encrypted sequence of whole blocks removes that sequence's padding (R224). -/
theorem execDecode_encryptWithMode (hiv : s.mode = .cbc → s.ivValid = true) (haligned : data.length % 8 = 0) :
    execDecode .bytes .bytes (encryptWithMode s data) s = succeed (unpadBytes s.padding data) s := by
  rw [execDecode_of_ready hkeyed (.inl rfl) (.inl rfl) hiv ((encryptWithMode_length s haligned).symm ▸ haligned),
    decryptWithMode_encryptWithMode s haligned]
  rfl

end

end Sys2Proof.Machine

section
open Sys2Proof Sys2Proof.Machine

/-- Settles O54: ENCODE leaves the tables, the mode and the IV that it used, and with them the decrypting driver gives the padded input back. -/
theorem facadeRoundTripsExactlyWhenPaddingDoes : Obligations.FacadeRoundTripsExactlyWhenPaddingDoes := by
  intro s t data r hkeyed henc hout
  obtain ⟨hmissing, rfl⟩ | ⟨hunaligned, rfl⟩ | ⟨hiv, haligned, rfl⟩ := execEncode_inv hkeyed henc <;>
    obtain rfl := (emit_outbox_iff _ _ s).mp hout
  case inl => exact ⟨iff_of_true nofun (.inr hmissing), nofun⟩
  case inr.inl => exact ⟨iff_of_true nofun (.inl hunaligned), nofun⟩
  case inr.inr =>
    refine ⟨iff_of_false (not_not_intro rfl) ?succeeds, fun _ =>
      ⟨_, _, execDecode_encryptWithMode (s := emit _ s) hkeyed hiv haligned, rfl, Iff.rfl⟩⟩
    rintro (hunaligned | ⟨hmode, hinvalid⟩)
    · exact (padBytes_misaligned_iff _ _).mpr hunaligned haligned
    · exact Bool.false_ne_true (hinvalid.symm.trans (hiv hmode))

/-- Settles O51: SET_IV has no check that reads MODE. -/
theorem setIvWritesBothHalves : Obligations.SetIvWritesBothHalves :=
  fun _ _ _ _ _ _ _ _ _ hkeyed => execSetIv_of_keyed hkeyed rfl

/-- Settles O52: the padded input is a whole number of blocks unless None leaves an unaligned one as it is. -/
theorem encodePadsThenEncrypts : Obligations.EncodePadsThenEncrypts :=
  fun _ _ hkeyed hiv hpad => execEncode_of_ready hkeyed hiv hpad

/-- Settles O53: with known types, whole blocks and the IV its mode needs, DECODE passes all its checks. -/
theorem decodeDecryptsThenUnpads : Obligations.DecodeDecryptsThenUnpads :=
  fun _ _ _ _ hkeyed hiv haligned hitype hrtype => execDecode_of_ready hkeyed hitype hrtype hiv haligned

/-- Settles O55: INIT clears IV_VALID, 7 bytes are no whole number of blocks, and SET_IV checks its length right after KEYED. -/
theorem namedMisuseOutcomes : Obligations.NamedMisuseOutcomes := by
  refine ⟨?encodeAfterInit, ?decodeSevenBytes, fun s iv hkeyed hlen => requireLength_fails_of_keyed hkeyed hlen⟩
  case encodeAfterInit =>
    intro s t scheme key data hkey hinit
    obtain rfl := succeed_inv ((execInit_of_ne_nil .cbc scheme hkey s).symm.trans hinit)
    exact execEncode_ivNotSet rfl rfl rfl
  case decodeSevenBytes =>
    intro s itype rtype data hkeyed hitype hlen
    exact execDecode_misaligned hkeyed hitype rtype (by omega)

end

/-!
SUPPORT. Proofs of the statements about errors (60_exceptions.md): the order of all checks (R303), what a failed command leaves unchanged (R301,
R302), and which commands report which status (R300). What later proofs can use: `Reports.exec` and `Reports.runFrame`, which say once that a
command and a complete frame report the first failing check of a list; and `runFrame_of_ne_ok`.
-/

namespace Sys2Proof.Machine

/-! ### The first failing check -/

theorem firstFailure_eq_ok_or_mem (checks : List (Bool × Status)) :
    firstFailure checks = .ok ∨ (true, firstFailure checks) ∈ checks := by
  induction checks with
  | nil => exact .inl rfl
  | cons check rest ih =>
    obtain ⟨fails, status⟩ := check
    cases fails with
    | true => exact .inr List.mem_cons_self
    | false => exact ih.imp_right (List.mem_cons_of_mem _)

/-- An answer that sends one response, with the status of the first check of the list that fails. -/
def Reports (s : State) (checks : List (Bool × Status)) (answer : Result) : Prop :=
  ∃ t r, answer = .next t ∧ t.outbox = s.outbox ++ [r] ∧ r.status = firstFailure checks

namespace Reports
variable {s : State} {checks : List (Bool × Status)} {go : Result} {fails : Bool} {status : Status}

/-- The response of the answer has that status. -/
theorem status_eq {t : State} {r : Response} (h : Reports s checks (.next t)) (hr : t.outbox = s.outbox ++ [r]) :
    r.status = firstFailure checks := by
  obtain ⟨_, r', ht, hr', hstatus⟩ := h
  cases ht
  obtain rfl : r = r' := by simpa using hr.symm.trans hr'
  exact hstatus

/-- With no check left, a command that is OK. -/
protected theorem ok {t : State} (text : Bool) (out : List Byte) (houtbox : t.outbox = s.outbox) :
    Reports s [] (.next (emit ⟨.ok, text, out⟩ t)) :=
  ⟨_, ⟨.ok, text, out⟩, rfl, congrArg (· ++ [_]) houtbox, rfl⟩

protected theorem raise : Reports s ((true, status) :: checks) (raise status s) := ⟨_, errorResponse status, rfl, rfl, rfl⟩

/-- A check that passes decides nothing. -/
protected theorem pass {answer : Result} (h : Reports s checks answer) : Reports s ((false, status) :: checks) answer := h

/-- A check in front of the others: it raises its status, or the answer is theirs. -/
protected theorem ite {c : Prop} [Decidable c] (hfails : fails = true ↔ ¬ c) (h : Reports s checks go) :
    Reports s ((fails, status) :: checks) (if c then go else raise status s) := by
  split
  next hc =>
    obtain rfl : fails = false := by simpa [hc] using hfails
    exact h.pass
  next hc =>
    obtain rfl := hfails.mpr hc
    exact .raise

/-- The same check, written with its failure first. -/
protected theorem ite_raise {c : Prop} [Decidable c] (hfails : fails = true ↔ c) (h : Reports s checks go) :
    Reports s ((fails, status) :: checks) (if c then raise status s else go) := by
  rw [← ite_not]
  exact .ite (hfails.trans not_not.symm) h

protected theorem requireKeyed (h : Reports s checks go) :
    Reports s ((!s.keyed, .notInitialized) :: checks) (requireKeyed s go) := .ite (by simp) h

protected theorem requireIv (h : Reports s checks go) : Reports s ((!s.ivValid, .ivNotSet) :: checks) (requireIv s go) :=
  .ite (by simp) h

protected theorem requireIvIfCbc (h : Reports s checks go) :
    Reports s ((s.mode == .cbc && !s.ivValid, .ivNotSet) :: checks) (requireIvIfCbc s go) := by
  unfold Machine.requireIvIfCbc
  split
  next hmode => simpa [hmode] using h.requireIv
  next hmode =>
    have hpasses : (s.mode == .cbc && !s.ivValid) = false := by simp [hmode]
    rw [hpasses]
    exact h.pass

protected theorem requireAligned {bytes : List Byte} (hfails : fails = true ↔ bytes.length % 8 ≠ 0) (h : Reports s checks go) :
    Reports s ((fails, .misalignedInput) :: checks) (requireAligned bytes s go) := .ite (by simpa [aligned] using hfails) h

protected theorem requireLength (n : Nat) (payload : List Byte) (h : Reports s checks go) :
    Reports s ((payload.length != n, status) :: checks) (requireLength n status payload s go) := .ite (by simp) h

end Reports

/-! ### The checks of a command (R303 steps 4 and 5) -/

/-- The commands that need a key (10_state.md R23). -/
def needsKey : Instr → Bool
  | .init _ _ _ | .pad _ _ | .unpad _ _ => false
  | _ => true

theorem needsKey_iff (i : Instr) : needsKey i = true ↔ (∀ mode scheme key, i ≠ .init mode scheme key) ∧
    (∀ scheme data, i ≠ .pad scheme data) ∧ ∀ scheme data, i ≠ .unpad scheme data := by
  cases i <;> simp [needsKey]

/-- Step 5 of R303 over the operands of a command, as `ownChecks` has it over the raw header (`ownChecks_headerOf`). -/
def operandChecks (s : State) : Instr → List (Bool × Status)
  | .init _ _ key => [(key.length == 0, .invalidKeyLength)]
  | .setIv iv => [(iv.length != 8, .invalidIvLength)]
  | .encode data =>
    [(s.mode == .cbc && !s.ivValid, .ivNotSet), (s.padding == .none && data.length % 8 != 0, .misalignedInput)]
  | .decode itype rtype data =>
    [(!typeKnown itype, .invalidInputType), (data.length % 8 != 0, .misalignedInput),
      (s.mode == .cbc && !s.ivValid, .ivNotSet), (!typeKnown rtype, .unsupportedReturnType)]
  | .fEval data => [(data.length != 4, .payloadLength)]
  | .encBlock data | .decBlock data => [(data.length != 8, .payloadLength)]
  | .pad _ _ | .unpad _ _ => []
  | .ecbEnc data | .ecbDec data => [(data.length % 8 != 0, .misalignedInput)]
  | .cbcEnc data => [(!s.ivValid, .ivNotSet), (data.length % 8 != 0, .misalignedInput)]
  | .cbcDec data => [(data.length % 8 != 0, .misalignedInput), (!s.ivValid, .ivNotSet)]

/-- Steps 4 and 5 of R303. -/
def commandChecks (s : State) (i : Instr) : List (Bool × Status) :=
  (needsKey i && !s.keyed, .notInitialized) :: operandChecks s i

/-- Every command makes its checks in the order of R303. -/
protected theorem Reports.exec (s : State) (i : Instr) : Reports s (commandChecks s i) (exec i s) := by
  cases i with
  | init mode scheme key => exact .ite_raise (by simp) (.ok _ _ rfl)
  | setIv iv => exact .requireKeyed (.requireLength _ _ (.ok _ _ rfl))
  | encode data =>
    refine .requireKeyed (.requireIvIfCbc (.requireAligned ?_ (.ok _ _ rfl)))
    simpa using (padBytes_misaligned_iff s.padding data).symm
  | decode itype rtype data =>
    exact .requireKeyed (.ite_raise Iff.rfl (.requireAligned (by simp) (.requireIvIfCbc (.ite_raise Iff.rfl (.ok _ _ rfl)))))
  | fEval data | encBlock data | decBlock data => exact .requireKeyed (.requireLength _ _ (.ok _ _ rfl))
  | pad scheme data | unpad scheme data => exact .ok _ _ rfl
  | ecbEnc data | ecbDec data => exact .requireKeyed (.requireAligned (by simp) (.ok _ _ rfl))
  | cbcEnc data => exact .requireKeyed (.requireIv (.requireAligned (by simp) (.ok _ _ rfl)))
  | cbcDec data => exact .requireKeyed (.requireAligned (by simp) (.requireIv (.ok _ _ rfl)))

/-- The commands without a key check are those of `padOpcodes`. -/
theorem padOpcodes_contains_headerOf (i : Instr) : padOpcodes.contains (headerOpc (headerOf i)) = !needsKey i := by
  cases i <;> simp only [headerOf, headerOpc_headerWord, needsKey] <;> decide

/-- The type codes 2 and 3 are the unknown ones (30_encoding.md R87, R88). -/
theorem two_le_typeCode (c : TypeCode) : decide (2 ≤ typeCode c) = !typeKnown c := by cases c <;> decide

theorem typeKnown_eq_false_iff (c : TypeCode) : typeKnown c = false ↔ c = .neither2 ∨ c = .neither3 := by
  cases c <;> simp [typeKnown]

/-- `ownChecks` on the header and payload of a command. -/
theorem ownChecks_headerOf (s : State) (i : Instr) : ownChecks s (headerOf i) i.payload = operandChecks s i := by
  cases i with
  | decode itype rtype data =>
    simp [ownChecks, headerOf, opcodeValue, operandChecks, Instr.payload, ← two_le_typeCode]
  | _ => simp [ownChecks, headerOf, opcodeValue, operandChecks, Instr.payload]

/-! ### The checks of a frame (R303 steps 1 to 3) -/

/-- An OPC value is assigned when some opcode has it (30_encoding.md R84). -/
theorem assignedOpcodes_contains (c : Byte) : assignedOpcodes.contains c = (opcodeOf c).isSome := by
  revert c
  decide

/-- The frame of an opcode is illegal exactly when that is a primitive which is not exposed. -/
theorem frameIllegal_of_opcodeOf (p : Params) {h : Word} {o : Opcode} (ho : opcodeOf (headerOpc h) = some o) :
    frameIllegal p h = (opcodePrimitive o && !p.exposePrimitives) := by
  simp [frameIllegal, -List.contains_eq_mem, assignedOpcodes_contains, ho, opcodePrimitive, opcodeValue_of_opcodeOf ho]

/-! The columns of R89, read off the OPC value. -/

theorem opcodeValue_bne_init (o : Opcode) : (opcodeValue o != 0x01) = !opcodeUsesMode o := by cases o <;> decide

theorem opcodeValue_bne_decode (o : Opcode) : (opcodeValue o != 0x04) = !opcodeUsesTypes o := by cases o <;> decide

theorem padOpcodes_contains_opcodeValue (o : Opcode) : padOpcodes.contains (opcodeValue o) = opcodeUsesPad o := by
  cases o <;> decide

/-- The PAD codes from 5 on are those of no scheme (R86). -/
theorem five_le_padCode (c : BitVec 3) : decide (5 ≤ c) = (padOfCode c).isNone := by
  revert c
  decide

/-- Step 3 of R303 makes the decoder's last checks; where PAD is not used it must be 0, which is a scheme's code. -/
theorem frameReserved_of_opcodeOf {h : Word} {o : Opcode} (ho : opcodeOf (headerOpc h) = some o) :
    frameReserved h = (headerRsvd h != 0 || !unusedFieldsZero o h || (padOfCode (headerPad h)).isNone) := by
  have hscheme : padOfCode (headerPad h) = none → headerPad h ≠ 0 := fun hnone hzero => nomatch hzero ▸ hnone
  simp only [frameReserved, ← opcodeValue_of_opcodeOf ho, opcodeValue_bne_init, opcodeValue_bne_decode,
    padOpcodes_contains_opcodeValue, five_le_padCode, unusedFieldsZero]
  rw [Bool.eq_iff_iff]
  cases opcodeUsesPad o with
  | true =>
    simp
    tauto
  | false =>
    -- A PAD field of no scheme is then reserved because it is not 0.
    simp
    tauto

theorem opcodeOf_of_legal {p : Params} {h : Word} (hlegal : frameIllegal p h = false) :
    ∃ o, opcodeOf (headerOpc h) = some o ∧ (opcodePrimitive o && !p.exposePrimitives) = false := by
  have hassigned : (opcodeOf (headerOpc h)).isSome = true := by
    rw [← assignedOpcodes_contains]
    simpa using (Bool.or_eq_false_iff.mp hlegal).1
  obtain ⟨o, ho⟩ := Option.isSome_iff_exists.mp hassigned
  exact ⟨o, ho, frameIllegal_of_opcodeOf p ho ▸ hlegal⟩

section
variable {p : Params} {h : Word} {n : Nat} {payload : List Byte}

theorem decodeFrame_of_illegal (hillegal : frameIllegal p h = true) :
    decodeFrame p ⟨h, n, payload⟩ = .error .illegalCommand := by
  refine (decodeFrame_illegalCommand_iff p _).mpr fun o ho => ?_
  simpa [frameIllegal_of_opcodeOf p ho] using hillegal

variable (hlegal : frameIllegal p h = false)
include hlegal

theorem decodeFrame_of_tooLarge (hlen : p.maxPayloadBytes < n) :
    decodeFrame p ⟨h, n, payload⟩ = .error .payloadTooLarge := by
  obtain ⟨o, ho, hexposed⟩ := opcodeOf_of_legal hlegal
  simp [decodeFrame, ho, hexposed, hlen]

theorem decodeFrame_of_reserved (hlen : n ≤ p.maxPayloadBytes) (hreserved : frameReserved h = true) :
    decodeFrame p ⟨h, n, payload⟩ = .error .reservedField := by
  obtain ⟨o, ho, hexposed⟩ := opcodeOf_of_legal hlegal
  rw [frameReserved_of_opcodeOf ho] at hreserved
  simp only [decodeFrame, ho, hexposed, Nat.not_lt.mpr hlen, Bool.false_eq_true, if_false]
  split_ifs with hrsvd hunused
  · rfl
  · rfl
  · have hnone : padOfCode (headerPad h) = none := by simpa [not_not.mp hrsvd, hunused] using hreserved
    rw [hnone]

theorem decodeFrame_of_checks_passed (hlen : n ≤ p.maxPayloadBytes) (hfields : frameReserved h = false) :
    ∃ i, decodeFrame p ⟨h, n, payload⟩ = .ok i := by
  obtain ⟨o, ho, hexposed⟩ := opcodeOf_of_legal hlegal
  rw [frameReserved_of_opcodeOf ho, Bool.or_eq_false_iff, Bool.or_eq_false_iff] at hfields
  obtain ⟨⟨hrsvd, hunused⟩, hpad⟩ := hfields
  obtain ⟨scheme, hscheme⟩ := Option.isSome_iff_exists.mp (Option.isNone_eq_false_iff.mp hpad)
  exact ⟨_, (decodeFrame_ok_iff p _ _).mpr
    ⟨o, scheme, ho, by simpa using hexposed, hlen, by simpa using hrsvd, by simpa using hunused, hscheme, rfl⟩⟩

end

/-- Steps 4 and 5 of R303 over the raw header and payload of an accepted frame are those of its command. -/
theorem commandChecks_of_decodeFrame {s : State} {p : Params} {f : Frame} {i : Instr} (hi : decodeFrame p f = .ok i) :
    (!padOpcodes.contains (headerOpc f.header) && !s.keyed, Status.notInitialized) :: ownChecks s f.header f.payload =
      commandChecks s i := by
  obtain ⟨hpayload, -⟩ := decodeFrame_ok_payload hi
  rw [← headerOf_of_decodeFrame hi, ← hpayload, ownChecks_headerOf, padOpcodes_contains_headerOf, Bool.not_not]
  rfl

/-- A complete frame reports the first check of R303 that fails. -/
protected theorem Reports.runFrame (s : State) (h : Word) (payload : List Byte) :
    Reports s (frameChecks s h payload) (runFrame ⟨h, payload.length, payload⟩ s) := by
  unfold Machine.runFrame frameChecks
  cases hillegal : frameIllegal s.params h with
  | true =>
    rw [decodeFrame_of_illegal hillegal]
    exact .raise
  | false =>
    cases hlong : decide (s.params.maxPayloadBytes < payload.length) with
    | true =>
      rw [decodeFrame_of_tooLarge hillegal (of_decide_eq_true hlong)]
      exact .pass .raise
    | false =>
      have hlen := Nat.not_lt.mp (of_decide_eq_false hlong)
      cases hreserved : frameReserved h with
      | true =>
        rw [decodeFrame_of_reserved hillegal hlen hreserved]
        exact .pass (.pass .raise)
      | false =>
        obtain ⟨i, hi⟩ := decodeFrame_of_checks_passed hillegal hlen hreserved
        have hexec := Reports.exec s i
        rw [← commandChecks_of_decodeFrame hi] at hexec
        rw [hi]
        exact .pass (.pass (.pass hexec))

/-! ### What a failure leaves unchanged (R301, R302) -/

section
variable {s t : State} {r : Response}

/-- A command that is not OK only sends its response, an error's. -/
theorem exec_of_ne_ok {i : Instr} (hexec : exec i s = .next t) (hr : t.outbox = s.outbox ++ [r]) (hstatus : r.status ≠ .ok) :
    r = errorResponse r.status ∧ t = emit r s := by
  have hwrites := commandsWriteOnlyWhatTheyOwn i s t r hexec hr
  rw [if_neg hstatus] at hwrites
  exact ⟨eq_errorResponse_of_ne_ok hexec hr hstatus, hwrites⟩

/-- Nor does a frame that is not OK do more, rejected by the decoder or by its command. -/
theorem runFrame_of_ne_ok {f : Frame} (hrun : runFrame f s = .next t) (hr : t.outbox = s.outbox ++ [r]) (hstatus : r.status ≠ .ok) :
    r = errorResponse r.status ∧ t = emit r s := by
  unfold runFrame at hrun
  split at hrun
  · exact exec_of_ne_ok hrun hr hstatus
  · obtain rfl := raise_inv hrun
    obtain rfl := (emit_outbox_iff ..).mp hr
    exact ⟨rfl, rfl⟩

end

end Sys2Proof.Machine

section
open Sys2Proof Sys2Proof.Machine

/-- Settles O10: the frame is received whole, and then each check is made only when those before it have passed. -/
theorem statusIsThatOfTheFirstFailingCheck : Obligations.StatusIsThatOfTheFirstFailingCheck := by
  intro s h payload later hfits hlater hinbox
  rw [step_complete_frame hfits hlater hinbox]
  exact Reports.runFrame (consume later s) h payload

/-- Settles O17: an error's response has no output and no TEXT bit, and sending it is all that a failure does. -/
theorem failedCommandChangesNothing : Obligations.FailedCommandChangesNothing := by
  refine ⟨fun i s t r hexec hr hstatus => ?_, fun s t h payload later r hfits hlater hinbox hstep hr hstatus => ?_⟩
  · obtain ⟨herror, rfl⟩ := exec_of_ne_ok hexec hr hstatus
    exact ⟨congrArg Response.out herror, congrArg Response.text herror, rfl⟩
  · rw [step_complete_frame hfits hlater hinbox] at hstep
    obtain ⟨herror, rfl⟩ := runFrame_of_ne_ok hstep hr hstatus
    exact ⟨congrArg Response.out herror, congrArg Response.text herror, rfl⟩

/-- Settles O21: a status other than OK is that of a check of the command that fails (`Reports.exec`). -/
theorem statusCodesAndWhoReportsThem : Obligations.StatusCodesAndWhoReportsThem := by
  refine ⟨rfl, fun i s t r hexec hr => ?_⟩
  have hreports := Reports.exec s i
  rw [hexec] at hreports
  rw [hreports.status_eq hr]
  obtain hok | hfails := firstFailure_eq_ok_or_mem (commandChecks s i)
  · rw [hok]
    trivial
  generalize firstFailure (commandChecks s i) = status at hfails
  obtain hkey | hown := List.mem_cons.mp hfails
  · obtain ⟨⟨hneeds, hkeyed⟩, rfl⟩ : (needsKey i = true ∧ s.keyed = false) ∧ status = .notInitialized := by simpa using hkey
    exact ⟨hkeyed, (needsKey_iff i).mp hneeds⟩
  cases i <;> simp [operandChecks] at hown
  case init mode scheme key =>
    obtain ⟨rfl, rfl⟩ := hown
    exact ⟨mode, scheme, rfl⟩
  case setIv iv =>
    obtain ⟨hlen, rfl⟩ := hown
    exact ⟨iv, rfl, hlen⟩
  case encode data =>
    obtain ⟨⟨hmode, hiv⟩, rfl⟩ | ⟨⟨hnone, hmis⟩, rfl⟩ := hown
    · exact ⟨hiv, .inl ⟨hmode, .inl ⟨data, rfl⟩⟩⟩
    · exact ⟨hmis, .inl ⟨data, rfl, hnone⟩⟩
  case decode itype rtype data =>
    obtain ⟨hitype, rfl⟩ | ⟨hmis, rfl⟩ | ⟨⟨hmode, hiv⟩, rfl⟩ | ⟨hrtype, rfl⟩ := hown
    · exact ⟨itype, rtype, data, rfl, (typeKnown_eq_false_iff itype).mp hitype⟩
    · exact ⟨hmis, .inr (.inl ⟨itype, rtype, data, rfl⟩)⟩
    · exact ⟨hiv, .inl ⟨hmode, .inr ⟨itype, rtype, data, rfl⟩⟩⟩
    · exact ⟨itype, rtype, data, rfl, (typeKnown_eq_false_iff rtype).mp hrtype⟩
  case fEval data | encBlock data | decBlock data =>
    obtain ⟨hlen, rfl⟩ := hown
    simpa using hlen
  case ecbEnc data | ecbDec data =>
    obtain ⟨hmis, rfl⟩ := hown
    exact ⟨hmis, by simp⟩
  case cbcEnc data =>
    obtain ⟨hiv, rfl⟩ | ⟨hmis, rfl⟩ := hown
    · exact ⟨hiv, by simp⟩
    · exact ⟨hmis, by simp⟩
  case cbcDec data =>
    obtain ⟨hmis, rfl⟩ | ⟨hiv, rfl⟩ := hown
    · exact ⟨hmis, by simp⟩
    · exact ⟨hiv, by simp⟩

end

/-!
SUPPORT. Proofs of the statements about reset and hazards (70_reset_and_hazards.md): waiting for a frame (R361), reset at any time (R350), every
step answers (R360), and the initialisation sequence (R351, R352). What later proofs can use: `nextTransaction_incomplete`,
`nextTransaction_reset` and `nextTransaction_resetInCommand`, which say what the block takes from a queue with no whole frame before a reset or its
end; and `exec_next`, `runFrame_next` and `step_next`.
-/

namespace Sys2Proof.Machine

/-! ### A queue in which no frame's command runs to its end (R350, R361; 30_encoding.md R80) -/

/-- With the header and length word received, the block still waits for payload bytes. -/
theorem drop_length_lt_of_incomplete {bs : List Byte} {n : Nat} (h8 : 8 ≤ bs.length) (h : bs.length < 8 ∨ bs.length < 8 + n) :
    (bs.drop 8).length < n := by
  rw [List.length_drop]
  omega

theorem nextTransaction_incomplete {bs : List Byte} (h : bs.length < 8 ∨ bs.length < 8 + (be32 bs 4).toNat) :
    nextTransaction (sendBytes bs) = .waiting := by
  obtain hshort | h8 := Nat.lt_or_ge bs.length 8
  · rw [nextTransaction, takeBytes_waiting hshort]
  · have hprefix := takeBytes_prefix [] h8
    rw [List.append_nil, List.append_nil] at hprefix
    simp only [nextTransaction, hprefix, be32_take, takeBytes_waiting (drop_length_lt_of_incomplete h8 h)]

theorem nextTransaction_reset {bs : List Byte} (later : List HostEvent)
    (h : bs.length < 8 ∨ bs.length < 8 + (be32 bs 4).toNat) :
    nextTransaction (sendBytes bs ++ .reset :: later) = .reset later := by
  obtain hshort | h8 := Nat.lt_or_ge bs.length 8
  · rw [nextTransaction, takeBytes_reset later hshort]
  · simp only [nextTransaction, takeBytes_prefix _ h8, be32_take, takeBytes_reset later (drop_length_lt_of_incomplete h8 h)]

/-- A reset inside the command of a complete frame takes the frame with it (R350). -/
theorem nextTransaction_resetInCommand {bs : List Byte} (later : List HostEvent) (h8 : 8 ≤ bs.length)
    (hlen : bs.length = 8 + (be32 bs 4).toNat) :
    nextTransaction (sendBytes bs ++ .resetInCommand :: later) = .reset later := by
  have hpayload := takeBytes_sendBytes (bs.drop 8) (.resetInCommand :: later)
  rw [List.length_drop, hlen, Nat.add_sub_cancel_left] at hpayload
  simp only [nextTransaction, takeBytes_prefix _ h8, be32_take, hpayload]

/-! ### Steps that run no command -/

theorem step_of_waiting {s : State} (h : nextTransaction s.inbox = .waiting) : step s = .next s := by
  rw [step, h, runTransaction]

theorem step_of_reset {s : State} {later : List HostEvent} (h : nextTransaction s.inbox = .reset later) :
    step s = .next (hostReset later s) := by
  rw [step, h, runTransaction]

/-! ### Every command, frame and step answers a next state (R360; 60_exceptions.md R306) -/

theorem exec_next (i : Instr) (s : State) : ∃ t, exec i s = .next t := by
  obtain ⟨t, r, -, hexec, -⟩ := exec_withPort i s s.inbox s.outbox
  exact ⟨_, hexec⟩

/-- A rejected frame is answered by its error. -/
theorem runFrame_next (f : Frame) (s : State) : ∃ t, runFrame f s = .next t := by
  unfold runFrame
  split
  · exact exec_next _ s
  · exact ⟨_, rfl⟩

theorem step_next (s : State) : ∃ t, step s = .next t := by
  cases htrans : nextTransaction s.inbox with
  | command f later =>
    rw [step, htrans]
    exact runFrame_next f (consume later s)
  | reset later => exact ⟨_, step_of_reset htrans⟩
  | waiting => exact ⟨s, step_of_waiting htrans⟩

end Sys2Proof.Machine

section
open Sys2Proof Sys2Proof.Machine

/-- Settles O8: what is left of the frame in the queue is taken with the reset (log entry 3), and `hostReset` keeps the parameters and the
responses sent (log entry 5). -/
theorem resetAbandonsWhateverIsInProgress : Obligations.ResetAbandonsWhateverIsInProgress := by
  intro s bs later h
  have htrans : nextTransaction s.inbox = .reset later := by
    obtain ⟨hinbox, hincomplete⟩ | ⟨hinbox, h8, hlen⟩ := h
    · rw [hinbox, nextTransaction_reset later hincomplete]
    · rw [hinbox, nextTransaction_resetInCommand later h8 hlen]
  exact ⟨hostReset later s, step_of_reset htrans, rfl, rfl, rfl, rfl, rfl⟩

/-- Settles O7: with too few bytes in the queue there is no transaction yet, and waiting for one is a step to the same state (log entry 4). -/
theorem incompleteFrameWaits : Obligations.IncompleteFrameWaits := by
  intro s bs hinbox hincomplete
  exact step_of_waiting (hinbox ▸ nextTransaction_incomplete hincomplete)

/-- Settles O14: by the block's next transaction, a frame, a reset or waiting. -/
theorem everyStepAnswersANextState : Obligations.EveryStepAnswersANextState := step_next

/-- Settles O56: INIT leaves the block keyed and SET_IV gives it an IV, so ENCODE of whole blocks has all it needs in either mode. -/
theorem initialisationSequenceWorks : Obligations.InitialisationSequenceWorks := by
  intro p mode scheme key iv data hkey hiv haligned
  refine ⟨_, _, _, _, execInit_of_ne_nil mode scheme hkey _, execSetIv_of_keyed rfl hiv,
    execEncode_of_ready rfl (fun _ => rfl) (fun _ => haligned), rfl, rfl, rfl, rfl, rfl, rfl, rfl⟩

end
